-- ==== Sys2Proof/Word.lean ====
section
/-! DEFINITION. The two bit-vector types of the block (00_scope.md R8; R7 fixes UNIT_BITS = 8, REG_BITS = ADDR_BITS = 16). -/

namespace Sys2Proof

/-- An 8-bit unsigned value: a byte of a PDU or a frame, a unit id, a function code, an exception code (R8, R84). -/
abbrev Byte := BitVec 8

/-- A 16-bit unsigned value (u16): a register element, an address, a quantity or a value on the wire (R8, R21, R84). -/
abbrev Word := BitVec 16

end Sys2Proof
end

