-- ==== Sys2Proof/Config.lean ====
section
/-! DEFINITION. The record CFG of 00_scope.md R7 and 10_state.md R28 as plain data, its suggested values, its legal
values, and the one free value of the model. CFG is held in `State.cfg`, so that a statement over every state holds
for every configuration (log entry 5). -/

namespace Sys2Proof

/-- `FRAMING` (R7): the framing strategy of the slave datapath and of the Master. -/
inductive Framing where
  | rtu
  | ascii
  | mbap
  deriving DecidableEq, Repr

/-- `MALFORMED_REQUEST_POLICY` (R7, 44_slave_exec.md R251). -/
inductive MalformedPolicy where
  | drop
  | exception (code : Byte)
  deriving DecidableEq, Repr

/-- `QTY_MIN[fc]`, `QTY_MAX[fc]` for one function code (R7). -/
structure QtyRange where
  min : Nat
  max : Nat
  deriving DecidableEq, Repr

/-- The record `CFG` (R7, R28). `unitFilter` is the predicate UNIT_FILTER as 256 bits, one for each unit id
(log entry 7). `readTimeout` is a duration of no stated unit, which no rule reads (log entry 18). -/
structure Cfg where
  slotsCD : Nat
  slotsID : Nat
  slotsHR : Nat
  slotsIR : Nat
  framing : Framing
  mbapPresent : Bool
  maxPdu : Nat
  hexAcceptLower : Bool
  excIllegalFunction : Byte
  excIllegalDataAddress : Byte
  excIllegalDataValue : Byte
  qtyReadCoils : QtyRange
  qtyReadDiscreteInputs : QtyRange
  qtyReadHoldingRegisters : QtyRange
  qtyReadInputRegisters : QtyRange
  qtyWriteMultipleCoils : QtyRange
  qtyWriteMultipleRegisters : QtyRange
  malformedPolicy : MalformedPolicy
  unitFilter : BitVec 256
  retries : Nat
  readTimeout : Nat
  masterCheckUnit : Bool
  deriving DecidableEq, Repr

/-- `DEFAULT_SLOTS` (R7): OPEN, "a handful"; 4 is the number of program P2 of 95_test_vectors.md.
DESIGN CHOICE, unsafe (log entry 6). -/
def Config.defaultSlots : Nat := 4

/-- The configuration of `State.reset`: R7's suggested defaults. DESIGN CHOICE, unsafe (log entries 6, 18). -/
def Cfg.default : Cfg where
  slotsCD := Config.defaultSlots
  slotsID := Config.defaultSlots
  slotsHR := Config.defaultSlots
  slotsIR := Config.defaultSlots
  framing := .rtu
  mbapPresent := false
  maxPdu := 253
  hexAcceptLower := false
  excIllegalFunction := 0x01
  excIllegalDataAddress := 0x02
  excIllegalDataValue := 0x03
  qtyReadCoils := ⟨1, 2000⟩
  qtyReadDiscreteInputs := ⟨1, 2000⟩
  qtyReadHoldingRegisters := ⟨1, 125⟩
  qtyReadInputRegisters := ⟨1, 125⟩
  qtyWriteMultipleCoils := ⟨1, 1968⟩
  qtyWriteMultipleRegisters := ⟨1, 123⟩
  malformedPolicy := .exception 0x03
  unitFilter := BitVec.allOnes 256
  retries := 0
  readTimeout := 0
  masterCheckUnit := false

/-- The legal values of R28, with the limits 44_slave_exec.md R244 puts on the read quantities. The machine runs
with any `Cfg`; a statement that needs a legal one says so (log entry 27). -/
def Cfg.legal (c : Cfg) : Bool :=
  decide (1 ≤ c.maxPdu) && decide (c.maxPdu ≤ 65534)
    && (c.framing != .mbap || c.mbapPresent)
    && decide (c.qtyReadCoils.min ≤ c.qtyReadCoils.max) && decide (c.qtyReadCoils.max ≤ 2040)
    && decide (c.qtyReadDiscreteInputs.min ≤ c.qtyReadDiscreteInputs.max)
    && decide (c.qtyReadDiscreteInputs.max ≤ 2040)
    && decide (c.qtyReadHoldingRegisters.min ≤ c.qtyReadHoldingRegisters.max)
    && decide (c.qtyReadHoldingRegisters.max ≤ 127)
    && decide (c.qtyReadInputRegisters.min ≤ c.qtyReadInputRegisters.max)
    && decide (c.qtyReadInputRegisters.max ≤ 127)
    && decide (c.qtyWriteMultipleCoils.min ≤ c.qtyWriteMultipleCoils.max)
    && decide (c.qtyWriteMultipleRegisters.min ≤ c.qtyWriteMultipleRegisters.max)

/-- FREE VALUE: the transaction identifier the Master puts on its next request under MBAP framing. "How identifiers
are chosen ... are not in NMB" (43_framing.md R234, 91_not_in_source.md N15); the argument is `State.freeCtr`
(log entry 15). -/
opaque Config.freeTid : Nat → Word

end Sys2Proof
end

