-- ==== Sys2Proof/Syntax.lean ====
section
/-! DEFINITION. The syntax of the block: banks, messages, error kinds, what is presented to it (`Offer`) and the one
inductive `Instr`, a constructor for each row of spec/opcode_table.json. -/

namespace Sys2Proof

/-- The four banks (10_state.md R20). -/
inductive Bank where
  | cd
  | id
  | hr
  | ir
  deriving DecidableEq, Repr

/-- The eight function codes (30_encoding.md R86). -/
inductive FuncCode where
  | readCoils
  | readDiscreteInputs
  | readHoldingRegisters
  | readInputRegisters
  | writeSingleCoil
  | writeSingleRegister
  | writeMultipleCoils
  | writeMultipleRegisters
  deriving DecidableEq, Repr

/-- A sequence of elements of one of the two element kinds that ever occur (40_datastore.md R138). -/
inductive Values where
  | bits (l : List Bool)
  | regs (l : List Word)
  deriving DecidableEq, Repr

/-- A request message (41_pdu_requests.md R150). -/
inductive Request where
  | readCoils (start quantity : Word)
  | readDiscreteInputs (start quantity : Word)
  | readHoldingRegisters (start quantity : Word)
  | readInputRegisters (start quantity : Word)
  | writeSingleCoil (address : Word) (value : Bool)
  | writeSingleRegister (address value : Word)
  | writeMultipleCoils (start : Word) (values : List Bool)
  | writeMultipleRegisters (start : Word) (values : List Word)
  deriving DecidableEq, Repr

/-- A response message (42_pdu_responses.md R180). A slave exception is an error, never a response. -/
inductive Response where
  | readCoils (bits : List Bool)
  | readDiscreteInputs (bits : List Bool)
  | readHoldingRegisters (values : List Word)
  | readInputRegisters (values : List Word)
  | writeSingleCoil (address : Word) (value : Bool)
  | writeSingleRegister (address value : Word)
  | writeMultipleCoils (start quantity : Word)
  | writeMultipleRegisters (start quantity : Word)
  deriving DecidableEq, Repr

/-- `expect = (efc, eq)` of `PDU.DEC_RSP` (42_pdu_responses.md R182): the function code of the expected response
type, and the quantity of the request where the caller supplies it. -/
structure Expect where
  fc : FuncCode
  qty : Option Nat
  deriving DecidableEq, Repr

/-- The two notification channels (10_state.md R29, R30). -/
inductive Channel where
  | readFrom
  | writtenTo
  deriving DecidableEq, Repr

/-- The reasons of `FormatError`, with the payloads of 60_exceptions.md R291. -/
inductive FormatReason where
  | empty
  | function (b : Byte)
  | length
  | byteCount
  | coilValue (v : Word)
  | protocol
  | unit (asked got : Byte)
  deriving DecidableEq, Repr

/-- The reasons of `IoError` (60_exceptions.md R291). -/
inductive IoReason where
  | checksum
  | hex
  | format
  | length
  deriving DecidableEq, Repr

/-- The five error kinds (60_exceptions.md R290, R291). -/
inductive Error where
  | outOfRange (bank : Bank) (start count : Nat)
  | formatError (r : FormatReason)
  | ioError (r : IoReason)
  | timeoutError
  | slaveException (fc code : Byte)
  deriving DecidableEq, Repr

/-- One structured operand of a host command (92_eei_decisions.md D2, D4; log entry 3). -/
inductive Operand where
  | byte (b : Byte)
  | word (w : Word)
  | nat (n : Nat)
  | bytes (bs : List Byte)
  | bank (b : Bank)
  | values (vs : Values)
  | request (m : Request)
  | response (m : Response)
  | expect (e : Expect)
  | channel (c : Channel)
  | observer (o : Nat)
  deriving DecidableEq, Repr

/-- What is presented to the block, in one of the three encoding spaces of the opcode table: a request PDU for the
slave's decoder, a response PDU for the response decoder with its caller's expectation, or a command code with its
operands on the command port (10_state.md R26, 30_encoding.md R86, R103; log entries 1, 2). -/
inductive Offer where
  | request (pdu : List Byte)
  | response (pdu : List Byte) (expect : Expect)
  | command (code : Byte) (operands : List Operand)
  deriving DecidableEq, Repr

/-- The instructions: one constructor for each row of spec/opcode_table.json, in its order. -/
inductive Instr where
  -- request PDUs (R86 to R91)
  | reqReadCoils (start quantity : Word)
  | reqReadDiscreteInputs (start quantity : Word)
  | reqReadHoldingRegisters (start quantity : Word)
  | reqReadInputRegisters (start quantity : Word)
  | reqWriteSingleCoil (address : Word) (value : Bool)
  | reqWriteSingleRegister (address value : Word)
  | reqWriteMultipleCoils (start : Word) (values : List Bool)
  | reqWriteMultipleRegisters (start : Word) (values : List Word)
  -- response PDUs (R92 to R97), with the caller's expectation (log entry 24)
  | rspReadCoils (expect : Expect) (data : List Byte)
  | rspReadDiscreteInputs (expect : Expect) (data : List Byte)
  | rspReadHoldingRegisters (expect : Expect) (values : List Word)
  | rspReadInputRegisters (expect : Expect) (values : List Word)
  | rspWriteSingleCoil (expect : Expect) (address : Word) (value : Bool)
  | rspWriteSingleRegister (expect : Expect) (address value : Word)
  | rspWriteMultipleCoils (expect : Expect) (start quantity : Word)
  | rspWriteMultipleRegisters (expect : Expect) (start quantity : Word)
  | rspException (fc code : Byte)
  -- the default row of the request space (R99, R252)
  | reqUnsupported (fc : Byte)
  -- host commands (R103)
  | crc16 (bytes : List Byte)
  | lrc (bytes : List Byte)
  | rtuFrame (unit : Byte) (pdu : List Byte)
  | rtuUnframe (wire : List Byte)
  | ascFrame (unit : Byte) (pdu : List Byte)
  | ascUnframe (wire : List Byte)
  | mbapFrame (tid : Word) (unit : Byte) (pdu : List Byte)
  | mbapUnframe (wire : List Byte)
  | rspCheckExc (pdu : List Byte)
  | pduEncReq (m : Request)
  | pduDecReq (bytes : List Byte)
  | pduEncRsp (m : Response)
  | pduDecRsp (bytes : List Byte) (expect : Expect)
  | pduEncExc (fc code : Byte)
  | dsRead (bank : Bank) (start count : Nat)
  | dsWrite (bank : Bank) (start : Nat) (values : Values)
  | dsCreate
  | dsLoad (cd id : List Bool) (hr ir : List Word)
  | dsGrow (bank : Bank) (values : Values)
  | obsSubscribe (channel : Channel) (observer : Nat)
  | slaveStep (wire : List Byte)
  | slaveExec (pdu : List Byte)
  | masterExecute (unit : Byte) (request : Request)
  deriving DecidableEq, Repr

end Sys2Proof
end

