-- ==== Sys2Proof/WellFormed.lean ====
section
/-! DEFINITION. Which terms of the syntax stand for an operation the spec gives a meaning, as far as that can be said
without the state (`MAX_PDU` is configuration and is checked where it is used). -/

namespace Sys2Proof

/-- Whether a byte is none of the eight supported function codes (30_encoding.md R99). -/
def unsupportedByte (b : Byte) : Bool :=
  b != 0x01 && b != 0x02 && b != 0x03 && b != 0x04 && b != 0x05 && b != 0x06 && b != 0x0F && b != 0x10

/-- The values are of the bank's element kind (10_state.md R21, 40_datastore.md R132). -/
def Values.fits : Bank → Values → Bool
  | .cd, .bits _ => true
  | .id, .bits _ => true
  | .hr, .regs _ => true
  | .ir, .regs _ => true
  | .cd, .regs _ => false
  | .id, .regs _ => false
  | .hr, .bits _ => false
  | .ir, .bits _ => false

/-- A well-formed request (41_pdu_requests.md R150): its data fit a one-byte byte count. -/
def Request.wf : Request → Bool
  | .writeMultipleCoils _ values => decide (values.length ≤ 2040)
  | .writeMultipleRegisters _ values => decide (values.length ≤ 127)
  | .readCoils _ _ => true
  | .readDiscreteInputs _ _ => true
  | .readHoldingRegisters _ _ => true
  | .readInputRegisters _ _ => true
  | .writeSingleCoil _ _ => true
  | .writeSingleRegister _ _ => true

/-- A well-formed response (42_pdu_responses.md R180): its data fit a one-byte byte count. -/
def Response.wf : Response → Bool
  | .readCoils bits => decide (bits.length ≤ 2040)
  | .readDiscreteInputs bits => decide (bits.length ≤ 2040)
  | .readHoldingRegisters values => decide (values.length ≤ 127)
  | .readInputRegisters values => decide (values.length ≤ 127)
  | .writeSingleCoil _ _ => true
  | .writeSingleRegister _ _ => true
  | .writeMultipleCoils _ _ => true
  | .writeMultipleRegisters _ _ => true

/-- A well-formed instruction. -/
def Instr.wf : Instr → Bool
  | .reqWriteMultipleCoils _ values => decide (values.length ≤ 2040)
  | .reqWriteMultipleRegisters _ values => decide (values.length ≤ 127)
  | .rspReadCoils _ data => decide (data.length ≤ 255)
  | .rspReadDiscreteInputs _ data => decide (data.length ≤ 255)
  | .rspReadHoldingRegisters _ values => decide (values.length ≤ 127)
  | .rspReadInputRegisters _ values => decide (values.length ≤ 127)
  | .rspException fc _ => !fc.getLsbD 7
  | .reqUnsupported fc => unsupportedByte fc
  | .rtuFrame _ pdu => !pdu.isEmpty
  | .ascFrame _ pdu => !pdu.isEmpty
  | .mbapFrame _ _ pdu => !pdu.isEmpty
  | .rspCheckExc pdu => !pdu.isEmpty
  | .pduEncReq m => m.wf
  | .pduEncRsp m => m.wf
  | .dsWrite bank _ values => values.fits bank
  | .dsGrow bank values => values.fits bank
  | .slaveExec pdu => !pdu.isEmpty
  | .masterExecute _ request => request.wf
  | .reqReadCoils _ _ => true
  | .reqReadDiscreteInputs _ _ => true
  | .reqReadHoldingRegisters _ _ => true
  | .reqReadInputRegisters _ _ => true
  | .reqWriteSingleCoil _ _ => true
  | .reqWriteSingleRegister _ _ => true
  | .rspWriteSingleCoil _ _ _ => true
  | .rspWriteSingleRegister _ _ _ => true
  | .rspWriteMultipleCoils _ _ _ => true
  | .rspWriteMultipleRegisters _ _ _ => true
  | .crc16 _ => true
  | .lrc _ => true
  | .rtuUnframe _ => true
  | .ascUnframe _ => true
  | .mbapUnframe _ => true
  | .pduDecReq _ => true
  | .pduDecRsp _ _ => true
  | .pduEncExc _ _ => true
  | .dsRead _ _ _ => true
  | .dsCreate => true
  | .dsLoad _ _ _ _ => true
  | .obsSubscribe _ _ => true
  | .slaveStep _ => true

end Sys2Proof
end

