-- ==== Sys2Proof/Decode.lean ====
section
/-! DEFINITION. The encodings of 30_encoding.md: byte and bit order, the PDU codec (41_pdu_requests.md,
42_pdu_responses.md), the decoder of everything that can be presented, the encoder, and the host's numbering of the
opcode table. -/

namespace Sys2Proof

/-! ## Byte order and bit order -/

/-- `hi(v) = v[15:8]` (00_scope.md R9). -/
def hiByte (v : Word) : Byte := v.extractLsb' 8 8

/-- `lo(v) = v[7:0]` (R9). -/
def loByte (v : Word) : Byte := v.extractLsb' 0 8

/-- `be16(v) = [hi(v), lo(v)]`: every two-byte PDU field (R9, 20_memory.md R59). -/
def be16 (v : Word) : List Byte := [hiByte v, loByte v]

/-- `le16(v) = [lo(v), hi(v)]`: the RTU CRC on the wire only (R9, 20_memory.md R61). -/
def le16 (v : Word) : List Byte := [loByte v, hiByte v]

/-- `u16be(a, b) = a * 256 + b` (R9). -/
def u16be (a b : Byte) : Word := a ++ b

/-- `ceil8(q)`: how many bytes hold `q` packed bits (R9). -/
def ceil8 (q : Nat) : Nat := (q + 7) / 8

/-- The byte whose bit `i` is `f i`. -/
def byteOfBits (f : Nat → Bool) : Byte :=
  BitVec.ofNat 8 ((f 0).toNat + 2 * (f 1).toNat + 4 * (f 2).toNat + 8 * (f 3).toNat
    + 16 * (f 4).toNat + 32 * (f 5).toNat + 64 * (f 6).toNat + 128 * (f 7).toNat)

/-- `pack_bits`: bit `i` of byte `j` is element `8 * j + i`, and 0 past the end (20_memory.md R60). -/
def packBits (bits : List Bool) : List Byte :=
  (List.range (ceil8 bits.length)).map fun j => byteOfBits fun i => bits.getD (8 * j + i) false

/-- `unpack_bits`: element `k` is bit `k mod 8` of byte `k div 8` (20_memory.md R60). -/
def unpackBits (bytes : List Byte) (q : Nat) : List Bool :=
  (List.range q).map fun k => (bytes.getD (k / 8) 0).getLsbD (k % 8)

/-- A register data block: each value big-endian, in order (R91, R93). -/
def encodeRegs (values : List Word) : List Byte := values.flatMap be16

/-- The registers of a data block of even length (R91, R93). -/
def decodeRegs : List Byte → List Word
  | a :: b :: rest => u16be a b :: decodeRegs rest
  | [_] => []
  | [] => []

/-- The value field of a single-coil PDU: 0xFF00 or 0x0000 (R89). -/
def coilField (value : Bool) : Word := if value then 0xFF00 else 0x0000

/-- The coil value of a value field; any other value is none (R89). -/
def coilValue? (v : Word) : Option Bool :=
  if v = 0xFF00 then some true else if v = 0x0000 then some false else none

/-! ## Function codes -/

/-- The byte of a function code (30_encoding.md R86). -/
def FuncCode.toByte : FuncCode → Byte
  | .readCoils => 0x01
  | .readDiscreteInputs => 0x02
  | .readHoldingRegisters => 0x03
  | .readInputRegisters => 0x04
  | .writeSingleCoil => 0x05
  | .writeSingleRegister => 0x06
  | .writeMultipleCoils => 0x0F
  | .writeMultipleRegisters => 0x10

/-- The supported function code a byte stands for, if any (R86, R99). -/
def FuncCode.ofByte? (b : Byte) : Option FuncCode :=
  if b = 0x01 then some .readCoils
  else if b = 0x02 then some .readDiscreteInputs
  else if b = 0x03 then some .readHoldingRegisters
  else if b = 0x04 then some .readInputRegisters
  else if b = 0x05 then some .writeSingleCoil
  else if b = 0x06 then some .writeSingleRegister
  else if b = 0x0F then some .writeMultipleCoils
  else if b = 0x10 then some .writeMultipleRegisters
  else none

/-- The function code of a request (R86). -/
def Request.funcCode : Request → FuncCode
  | .readCoils _ _ => .readCoils
  | .readDiscreteInputs _ _ => .readDiscreteInputs
  | .readHoldingRegisters _ _ => .readHoldingRegisters
  | .readInputRegisters _ _ => .readInputRegisters
  | .writeSingleCoil _ _ => .writeSingleCoil
  | .writeSingleRegister _ _ => .writeSingleRegister
  | .writeMultipleCoils _ _ => .writeMultipleCoils
  | .writeMultipleRegisters _ _ => .writeMultipleRegisters

/-- The function code of a response (R86). -/
def Response.funcCode : Response → FuncCode
  | .readCoils _ => .readCoils
  | .readDiscreteInputs _ => .readDiscreteInputs
  | .readHoldingRegisters _ => .readHoldingRegisters
  | .readInputRegisters _ => .readInputRegisters
  | .writeSingleCoil _ _ => .writeSingleCoil
  | .writeSingleRegister _ _ => .writeSingleRegister
  | .writeMultipleCoils _ _ => .writeMultipleCoils
  | .writeMultipleRegisters _ _ => .writeMultipleRegisters

/-- `q` of `MASTER.EXECUTE`: the quantity of a read request, none for the four writes (45_master.md R272). -/
def Request.readQuantity : Request → Option Nat
  | .readCoils _ q => some q.toNat
  | .readDiscreteInputs _ q => some q.toNat
  | .readHoldingRegisters _ q => some q.toNat
  | .readInputRegisters _ q => some q.toNat
  | .writeSingleCoil _ _ => none
  | .writeSingleRegister _ _ => none
  | .writeMultipleCoils _ _ => none
  | .writeMultipleRegisters _ _ => none

/-- What the caller of a request expects of its response (R182, R272). -/
def Request.expect (m : Request) : Expect := ⟨m.funcCode, m.readQuantity⟩

/-! ## The request codec (41_pdu_requests.md) -/

/-- `PDU.ENC_REQ` of a well-formed request (R151; R153, R155, R157, R159, R161, R163, R165, R167). -/
def encodeRequest : Request → List Byte
  | .readCoils start q => 0x01 :: (be16 start ++ be16 q)
  | .readDiscreteInputs start q => 0x02 :: (be16 start ++ be16 q)
  | .readHoldingRegisters start q => 0x03 :: (be16 start ++ be16 q)
  | .readInputRegisters start q => 0x04 :: (be16 start ++ be16 q)
  | .writeSingleCoil address value => 0x05 :: (be16 address ++ be16 (coilField value))
  | .writeSingleRegister address value => 0x06 :: (be16 address ++ be16 value)
  | .writeMultipleCoils start values =>
    0x0F :: (be16 start ++ be16 (BitVec.ofNat 16 values.length)
      ++ BitVec.ofNat 8 (ceil8 values.length) :: packBits values)
  | .writeMultipleRegisters start values =>
    0x10 :: (be16 start ++ be16 (BitVec.ofNat 16 values.length)
      ++ BitVec.ofNat 8 (2 * values.length) :: encodeRegs values)

/-- Two two-byte fields after the function code, exactly: formats RQ-RD, RQ-WS, RS-ECHO and RS-WM (R87, R88, R94,
R95). -/
def twoWords : List Byte → Except FormatReason (Word × Word)
  | [a, b, c, d] => .ok (u16be a b, u16be c d)
  | _ => .error .length

/-- Address and value of a single-coil PDU: length first, then the coil value (R162, R192). -/
def coilFields (rest : List Byte) : Except FormatReason (Word × Bool) :=
  match twoWords rest with
  | .error r => .error r
  | .ok (address, v) =>
    match coilValue? v with
    | some value => .ok (address, value)
    | none => .error (.coilValue v)

/-- Decode of 0x0F after the function code (R166). -/
def decodeWriteMultipleCoils : List Byte → Except FormatReason Request
  | a :: b :: c :: d :: n :: data =>
    if n.toNat ≠ ceil8 (u16be c d).toNat then .error .byteCount
    else if data.length ≠ n.toNat then .error .length
    else .ok (.writeMultipleCoils (u16be a b) (unpackBits data (u16be c d).toNat))
  | _ => .error .length

/-- Decode of 0x10 after the function code (R168). -/
def decodeWriteMultipleRegisters : List Byte → Except FormatReason Request
  | a :: b :: c :: d :: n :: data =>
    if n.toNat ≠ 2 * (u16be c d).toNat then .error .byteCount
    else if data.length ≠ n.toNat then .error .length
    else .ok (.writeMultipleRegisters (u16be a b) (decodeRegs data))
  | _ => .error .length

/-- Decode of a request after its function code (R154, R156, R158, R160, R162, R164, R166, R168). -/
def decodeRequestBody : FuncCode → List Byte → Except FormatReason Request
  | .readCoils, rest => (twoWords rest).map fun f => .readCoils f.1 f.2
  | .readDiscreteInputs, rest => (twoWords rest).map fun f => .readDiscreteInputs f.1 f.2
  | .readHoldingRegisters, rest => (twoWords rest).map fun f => .readHoldingRegisters f.1 f.2
  | .readInputRegisters, rest => (twoWords rest).map fun f => .readInputRegisters f.1 f.2
  | .writeSingleCoil, rest => (coilFields rest).map fun f => .writeSingleCoil f.1 f.2
  | .writeSingleRegister, rest => (twoWords rest).map fun f => .writeSingleRegister f.1 f.2
  | .writeMultipleCoils, rest => decodeWriteMultipleCoils rest
  | .writeMultipleRegisters, rest => decodeWriteMultipleRegisters rest

/-- `PDU.DEC_REQ` (R152, order of the tests R299). -/
def decodeRequest : List Byte → Except FormatReason Request
  | [] => .error .empty
  | fc :: rest =>
    match FuncCode.ofByte? fc with
    | none => .error (.function fc)
    | some f => decodeRequestBody f rest

/-! ## The response codec (42_pdu_responses.md) -/

/-- `PDU.ENC_RSP` of a well-formed response (R181; R183, R185, R187, R189, R191, R193, R195, R197). -/
def encodeResponse : Response → List Byte
  | .readCoils bits => 0x01 :: BitVec.ofNat 8 (ceil8 bits.length) :: packBits bits
  | .readDiscreteInputs bits => 0x02 :: BitVec.ofNat 8 (ceil8 bits.length) :: packBits bits
  | .readHoldingRegisters values => 0x03 :: BitVec.ofNat 8 (2 * values.length) :: encodeRegs values
  | .readInputRegisters values => 0x04 :: BitVec.ofNat 8 (2 * values.length) :: encodeRegs values
  | .writeSingleCoil address value => 0x05 :: (be16 address ++ be16 (coilField value))
  | .writeSingleRegister address value => 0x06 :: (be16 address ++ be16 value)
  | .writeMultipleCoils start q => 0x0F :: (be16 start ++ be16 q)
  | .writeMultipleRegisters start q => 0x10 :: (be16 start ++ be16 q)

/-- `PDU.ENC_EXC fc, code = [fc or 0x80, code]` (R97, R199). -/
def encodeException (fc code : Byte) : List Byte := [fc ||| 0x80, code]

/-- The data bytes after a one-byte byte count that must fit them exactly (R184, R188: the two length tests). -/
def countedData : List Byte → Except FormatReason (List Byte)
  | n :: data => if data.length ≠ n.toNat then .error .length else .ok data
  | [] => .error .length

/-- The registers after a byte count: length, then evenness (R188). -/
def countedRegs (rest : List Byte) : Except FormatReason (List Word) :=
  match countedData rest with
  | .error r => .error r
  | .ok data => if data.length % 2 ≠ 0 then .error .byteCount else .ok (decodeRegs data)

/-- The bits of a read-bits response, by the expected quantity: exactly that many, or all of the data bytes' bits
where the caller supplies none (R184). -/
def expectBits (qty : Option Nat) (data : List Byte) : Except FormatReason (List Bool) :=
  match qty with
  | none => .ok (unpackBits data (8 * data.length))
  | some q => if data.length ≠ ceil8 q then .error .byteCount else .ok (unpackBits data q)

/-- The registers of a read-registers response against the expected quantity (R188). -/
def expectRegs (qty : Option Nat) (values : List Word) : Except FormatReason (List Word) :=
  match qty with
  | none => .ok values
  | some q => if values.length ≠ q then .error .byteCount else .ok values

/-- Decode of a response after its function code (R184, R186, R188, R190, R192, R194, R196, R198). -/
def decodeResponseBody (f : FuncCode) (qty : Option Nat) (rest : List Byte) : Except FormatReason Response :=
  match f with
  | .readCoils => (countedData rest).bind fun data => (expectBits qty data).map .readCoils
  | .readDiscreteInputs => (countedData rest).bind fun data => (expectBits qty data).map .readDiscreteInputs
  | .readHoldingRegisters => (countedRegs rest).bind fun vs => (expectRegs qty vs).map .readHoldingRegisters
  | .readInputRegisters => (countedRegs rest).bind fun vs => (expectRegs qty vs).map .readInputRegisters
  | .writeSingleCoil => (coilFields rest).map fun p => .writeSingleCoil p.1 p.2
  | .writeSingleRegister => (twoWords rest).map fun p => .writeSingleRegister p.1 p.2
  | .writeMultipleCoils => (twoWords rest).map fun p => .writeMultipleCoils p.1 p.2
  | .writeMultipleRegisters => (twoWords rest).map fun p => .writeMultipleRegisters p.1 p.2

/-- The exception bit of a function code byte (R85). -/
def exceptionBit (b : Byte) : Bool := b.getLsbD 7

/-- `PDU.DEC_RSP` (R182, order of the tests R298). -/
def decodeResponse (pdu : List Byte) (expect : Expect) : Except Error Response :=
  match pdu with
  | [] => .error (.formatError .empty)
  | fc :: rest =>
    if exceptionBit fc then
      match rest with
      | [] => .error (.formatError .length)
      | code :: _ => .error (.slaveException (fc &&& 0x7F) code)
    else if fc ≠ expect.fc.toByte then .error (.formatError (.function fc))
    else (decodeResponseBody expect.fc expect.qty rest).mapError .formatError

/-! ## The decoder of what is presented -/

/-- Why what was presented is no instruction. -/
inductive DecodeError where
  /-- a request PDU `PDU.DEC_REQ` reports (R152), except for its function code -/
  | request (r : FormatReason)
  /-- a response PDU whose layout is wrong for its own function code (R182) -/
  | response (r : FormatReason)
  /-- no command of R103 has this code -/
  | unknownCommand (code : Byte)
  /-- the operands are not of the shape the command takes (R103) -/
  | badOperands (code : Byte)
  deriving DecidableEq, Repr

/-- The instruction of a request message. -/
def Instr.ofRequest : Request → Instr
  | .readCoils start q => .reqReadCoils start q
  | .readDiscreteInputs start q => .reqReadDiscreteInputs start q
  | .readHoldingRegisters start q => .reqReadHoldingRegisters start q
  | .readInputRegisters start q => .reqReadInputRegisters start q
  | .writeSingleCoil address value => .reqWriteSingleCoil address value
  | .writeSingleRegister address value => .reqWriteSingleRegister address value
  | .writeMultipleCoils start values => .reqWriteMultipleCoils start values
  | .writeMultipleRegisters start values => .reqWriteMultipleRegisters start values

/-- The request space: a function code outside the eight is the row REQ.UNSUPPORTED, whatever follows it
(R99, R252). -/
def decodeRequestOffer (pdu : List Byte) : Except DecodeError Instr :=
  match decodeRequest pdu with
  | .ok m => .ok (Instr.ofRequest m)
  | .error (.function fc) => .ok (.reqUnsupported fc)
  | .error r => .error (.request r)

/-- A response row, by the PDU's own function code. -/
def decodeResponseRow (f : FuncCode) (expect : Expect) (rest : List Byte) : Except FormatReason Instr :=
  match f with
  | .readCoils => (countedData rest).map fun data => .rspReadCoils expect data
  | .readDiscreteInputs => (countedData rest).map fun data => .rspReadDiscreteInputs expect data
  | .readHoldingRegisters => (countedRegs rest).map fun vs => .rspReadHoldingRegisters expect vs
  | .readInputRegisters => (countedRegs rest).map fun vs => .rspReadInputRegisters expect vs
  | .writeSingleCoil => (coilFields rest).map fun p => .rspWriteSingleCoil expect p.1 p.2
  | .writeSingleRegister => (twoWords rest).map fun p => .rspWriteSingleRegister expect p.1 p.2
  | .writeMultipleCoils => (twoWords rest).map fun p => .rspWriteMultipleCoils expect p.1 p.2
  | .writeMultipleRegisters => (twoWords rest).map fun p => .rspWriteMultipleRegisters expect p.1 p.2

/-- The response space: the row RSP.EXCEPTION is tested before every other, and extra bytes are ignored (R182). -/
def decodeResponseOffer (pdu : List Byte) (expect : Expect) : Except DecodeError Instr :=
  match pdu with
  | [] => .error (.response .empty)
  | fc :: rest =>
    if exceptionBit fc then
      match rest with
      | [] => .error (.response .length)
      | code :: _ => .ok (.rspException (fc &&& 0x7F) code)
    else
      match FuncCode.ofByte? fc with
      | none => .error (.response (.function fc))
      | some f => (decodeResponseRow f expect rest).mapError .response

/-- The command codes of R103. -/
def commandCodes : List Byte :=
  [0x00, 0x01, 0x10, 0x11, 0x12, 0x13, 0x14, 0x15, 0x16, 0x20, 0x21, 0x22, 0x23, 0x24,
   0x30, 0x31, 0x32, 0x33, 0x34, 0x35, 0x40, 0x41, 0x50]

/-- The command port (R103): a code and its structured operands. -/
def decodeCommand (code : Byte) (operands : List Operand) : Except DecodeError Instr :=
  match code.toNat, operands with
  | 0x00, [.bytes bs] => .ok (.crc16 bs)
  | 0x01, [.bytes bs] => .ok (.lrc bs)
  | 0x10, [.byte unit, .bytes pdu] => .ok (.rtuFrame unit pdu)
  | 0x11, [.bytes wire] => .ok (.rtuUnframe wire)
  | 0x12, [.byte unit, .bytes pdu] => .ok (.ascFrame unit pdu)
  | 0x13, [.bytes wire] => .ok (.ascUnframe wire)
  | 0x14, [.word tid, .byte unit, .bytes pdu] => .ok (.mbapFrame tid unit pdu)
  | 0x15, [.bytes wire] => .ok (.mbapUnframe wire)
  | 0x16, [.bytes pdu] => .ok (.rspCheckExc pdu)
  | 0x20, [.request m] => .ok (.pduEncReq m)
  | 0x21, [.bytes bs] => .ok (.pduDecReq bs)
  | 0x22, [.response m] => .ok (.pduEncRsp m)
  | 0x23, [.bytes bs, .expect e] => .ok (.pduDecRsp bs e)
  | 0x24, [.byte fc, .byte exc] => .ok (.pduEncExc fc exc)
  | 0x30, [.bank b, .nat start, .nat count] => .ok (.dsRead b start count)
  | 0x31, [.bank b, .nat start, .values vs] => .ok (.dsWrite b start vs)
  | 0x32, [] => .ok .dsCreate
  | 0x33, [.values (.bits cd), .values (.bits id), .values (.regs hr), .values (.regs ir)] =>
    .ok (.dsLoad cd id hr ir)
  | 0x34, [.bank b, .values vs] => .ok (.dsGrow b vs)
  | 0x35, [.channel c, .observer o] => .ok (.obsSubscribe c o)
  | 0x40, [.bytes wire] => .ok (.slaveStep wire)
  | 0x41, [.bytes pdu] => .ok (.slaveExec pdu)
  | 0x50, [.byte unit, .request m] => .ok (.masterExecute unit m)
  | _, _ => if commandCodes.contains code then .error (.badOperands code) else .error (.unknownCommand code)

/-- The decoder: total on everything that can be presented. -/
def decode : Offer → Except DecodeError Instr
  | .request pdu => decodeRequestOffer pdu
  | .response pdu expect => decodeResponseOffer pdu expect
  | .command code operands => decodeCommand code operands

/-! ## The encoder -/

/-- The response PDU of a typed response row with its data bytes (R92). -/
def countedBytes (fc : Byte) (data : List Byte) : List Byte := fc :: BitVec.ofNat 8 data.length :: data

/-- What is presented for a well-formed instruction. -/
def encode : Instr → Offer
  | .reqReadCoils start q => .request (encodeRequest (.readCoils start q))
  | .reqReadDiscreteInputs start q => .request (encodeRequest (.readDiscreteInputs start q))
  | .reqReadHoldingRegisters start q => .request (encodeRequest (.readHoldingRegisters start q))
  | .reqReadInputRegisters start q => .request (encodeRequest (.readInputRegisters start q))
  | .reqWriteSingleCoil address value => .request (encodeRequest (.writeSingleCoil address value))
  | .reqWriteSingleRegister address value => .request (encodeRequest (.writeSingleRegister address value))
  | .reqWriteMultipleCoils start values => .request (encodeRequest (.writeMultipleCoils start values))
  | .reqWriteMultipleRegisters start values => .request (encodeRequest (.writeMultipleRegisters start values))
  | .rspReadCoils e data => .response (countedBytes 0x01 data) e
  | .rspReadDiscreteInputs e data => .response (countedBytes 0x02 data) e
  | .rspReadHoldingRegisters e values => .response (encodeResponse (.readHoldingRegisters values)) e
  | .rspReadInputRegisters e values => .response (encodeResponse (.readInputRegisters values)) e
  | .rspWriteSingleCoil e address value => .response (encodeResponse (.writeSingleCoil address value)) e
  | .rspWriteSingleRegister e address value => .response (encodeResponse (.writeSingleRegister address value)) e
  | .rspWriteMultipleCoils e start q => .response (encodeResponse (.writeMultipleCoils start q)) e
  | .rspWriteMultipleRegisters e start q => .response (encodeResponse (.writeMultipleRegisters start q)) e
  | .rspException fc code => .response (encodeException fc code) ⟨.readCoils, none⟩
  | .reqUnsupported fc => .request [fc]
  | .crc16 bs => .command 0x00 [.bytes bs]
  | .lrc bs => .command 0x01 [.bytes bs]
  | .rtuFrame unit pdu => .command 0x10 [.byte unit, .bytes pdu]
  | .rtuUnframe wire => .command 0x11 [.bytes wire]
  | .ascFrame unit pdu => .command 0x12 [.byte unit, .bytes pdu]
  | .ascUnframe wire => .command 0x13 [.bytes wire]
  | .mbapFrame tid unit pdu => .command 0x14 [.word tid, .byte unit, .bytes pdu]
  | .mbapUnframe wire => .command 0x15 [.bytes wire]
  | .rspCheckExc pdu => .command 0x16 [.bytes pdu]
  | .pduEncReq m => .command 0x20 [.request m]
  | .pduDecReq bs => .command 0x21 [.bytes bs]
  | .pduEncRsp m => .command 0x22 [.response m]
  | .pduDecRsp bs e => .command 0x23 [.bytes bs, .expect e]
  | .pduEncExc fc exc => .command 0x24 [.byte fc, .byte exc]
  | .dsRead b start count => .command 0x30 [.bank b, .nat start, .nat count]
  | .dsWrite b start vs => .command 0x31 [.bank b, .nat start, .values vs]
  | .dsCreate => .command 0x32 []
  | .dsLoad cd id hr ir =>
    .command 0x33 [.values (.bits cd), .values (.bits id), .values (.regs hr), .values (.regs ir)]
  | .dsGrow b vs => .command 0x34 [.bank b, .values vs]
  | .obsSubscribe c o => .command 0x35 [.channel c, .observer o]
  | .slaveStep wire => .command 0x40 [.bytes wire]
  | .slaveExec pdu => .command 0x41 [.bytes pdu]
  | .masterExecute unit m => .command 0x50 [.byte unit, .request m]

/-! ## The host's numbering of the opcode table

The three spaces of the table share byte values, and the host's number carries none of the spaces' names: a first byte
that is one of the eight function codes is read as a request PDU, else a command code as a host command, else a byte
with bit 7 set as an exception response, else as a request (log entry 1). -/

/-- The first `n` bytes of a number, bit 0 the least significant bit of the first byte. -/
def tableBytes : Nat → Nat → List Byte
  | 0, _ => []
  | n + 1, w => BitVec.ofNat 8 w :: tableBytes n (w / 256)

/-- A byte list filled up with zero bytes to a length. -/
def padTo (n : Nat) (bs : List Byte) : List Byte := bs ++ List.replicate (n - bs.length) 0

/-- The length of a request PDU by its function code and byte count (R96). -/
def requestLength (f : FuncCode) (bs : List Byte) : Nat :=
  match f with
  | .writeMultipleCoils => 6 + (bs.getD 5 0).toNat
  | .writeMultipleRegisters => 6 + (bs.getD 5 0).toNat
  | .readCoils => 5
  | .readDiscreteInputs => 5
  | .readHoldingRegisters => 5
  | .readInputRegisters => 5
  | .writeSingleCoil => 5
  | .writeSingleRegister => 5

/-- The operands of zeros of a host command: zero numbers, the first bank and channel, empty sequences, and a PDU of
one zero byte where the command takes a PDU that is not empty (log entry 3). -/
def zeroOperands (code : Byte) : List Operand :=
  match code.toNat with
  | 0x00 => [.bytes []]
  | 0x01 => [.bytes []]
  | 0x10 => [.byte 0, .bytes [0]]
  | 0x11 => [.bytes []]
  | 0x12 => [.byte 0, .bytes [0]]
  | 0x13 => [.bytes []]
  | 0x14 => [.word 0, .byte 0, .bytes [0]]
  | 0x15 => [.bytes []]
  | 0x16 => [.bytes [0]]
  | 0x20 => [.request (.readCoils 0 0)]
  | 0x21 => [.bytes []]
  | 0x22 => [.response (.readCoils [])]
  | 0x23 => [.bytes [], .expect ⟨.readCoils, none⟩]
  | 0x24 => [.byte 0, .byte 0]
  | 0x30 => [.bank .cd, .nat 0, .nat 0]
  | 0x31 => [.bank .cd, .nat 0, .values (.bits [])]
  | 0x33 => [.values (.bits []), .values (.bits []), .values (.regs []), .values (.regs [])]
  | 0x34 => [.bank .cd, .values (.bits [])]
  | 0x35 => [.channel .readFrom, .observer 0]
  | 0x40 => [.bytes []]
  | 0x41 => [.bytes [0]]
  | 0x50 => [.byte 0, .request (.readCoils 0 0)]
  | _ => []

/-- What is presented for a row's number. A host command's operands have no bits, so any set bit past its code is
an operand the command does not take. -/
def tableOffer (nbits w : Nat) : Offer :=
  let bs := tableBytes ((nbits + 7) / 8) (w % 2 ^ nbits)
  let first := bs.headD 0
  match FuncCode.ofByte? first with
  | some f => .request (padTo (requestLength f bs) bs)
  | none =>
    if commandCodes.contains first then
      if (bs.drop 1).all (· == 0) then .command first (zeroOperands first)
      else .command first [.nat 0, .bytes (bs.drop 1)]
    else if exceptionBit first then .response (padTo 2 bs) ⟨.readCoils, none⟩
    else .request (padTo 1 bs)

/-- The instruction the decoder reads from a row's number. -/
def decodeTableWord (nbits w : Nat) : Option Instr := (decode (tableOffer nbits w)).toOption

end Sys2Proof
end

