-- ==== Sys2Proof/Machine/State.lean ====
section
/-! DEFINITION. The state of the block as plain data, the reasons a step can stop, and reset (10_state.md,
70_reset_and_hazards.md). -/

namespace Sys2Proof.Machine

/-- The DataStore (10_state.md R20, R21): four independent sequences, the sentinel at index 0 of each. -/
structure Memory where
  cd : List Bool
  id : List Bool
  hr : List Word
  ir : List Word
  deriving DecidableEq, Repr

/-- The canonical form of the DataStore: every bank has its sentinel, and the sentinel is the zero of the element
type (10_state.md R22, R23). -/
abbrev Memory.wf (m : Memory) : Prop :=
  m.cd.head? = some false ∧ m.id.head? = some false ∧ m.hr.head? = some 0 ∧ m.ir.head? = some 0

/-- The bank kind of an event record (10_state.md R31). -/
inductive BankKind where
  | coil
  | input
  | holdingRegister
  | inputRegister
  deriving DecidableEq, Repr

/-- An event record (10_state.md R31): the bank kind, the logical start address, the elements read or written. -/
structure Event where
  kind : BankKind
  start : Nat
  data : Values
  deriving DecidableEq, Repr

/-- The states of the Master sequencer (45_master.md R270). -/
inductive MState where
  | idle
  | sending
  | awaitingResponse
  | validating
  | retrying
  | failed
  deriving DecidableEq, Repr

/-- What the byte-transport answers to one receive of the Master: a whole candidate frame, or that the deadline
passed (60_exceptions.md R316, R318; 92_eei_decisions.md D28, D32). -/
inductive RxAnswer where
  | frame (wire : List Byte)
  | timeout
  deriving DecidableEq, Repr

/-- The value of a successful operation (00_scope.md R11). -/
inductive Value where
  | unit
  | byte (b : Byte)
  | word (w : Word)
  | bytes (bs : List Byte)
  | unframed (unit : Byte) (pdu : List Byte)
  | mbapUnframed (tid : Word) (unit : Byte) (pdu : List Byte)
  | request (m : Request)
  | response (m : Response)
  | data (vs : Values)
  | reply (r : Option (List Byte))
  deriving DecidableEq, Repr

/-- The typed result of an operation (00_scope.md R11): `ok(v)` or one of the five error kinds. -/
inductive Result where
  | ok (v : Value)
  | error (e : Error)
  deriving DecidableEq, Repr

/-- The state of the machine. INVENTORY.md, '## State', lists every field with its rule and its reset value. -/
structure State where
  /-- CFG (R28; log entry 5) -/
  cfg : Cfg
  /-- the four banks (R20) -/
  mem : Memory
  /-- whether the store has been created (R24; log entry 8) -/
  created : Bool
  /-- DS_BUSY (R32) -/
  dsBusy : Bool
  /-- OBS_R, strictly rising (R29; log entry 10) -/
  obsR : List Nat
  /-- OBS_W, strictly rising (R29; log entry 10) -/
  obsW : List Nat
  /-- EVT_R, oldest first (R30) -/
  evtR : List Event
  /-- EVT_W, oldest first (R30) -/
  evtW : List Event
  /-- the Master sequencer (R34, R270) -/
  mstate : MState
  attempts : Nat
  req : Option Request
  tid : Word
  /-- the states `mstate` went through, oldest first (log entry 12) -/
  mtrace : List MState
  /-- operations presented and not yet performed, oldest first (R26, R36; log entry 2) -/
  pending : List Offer
  /-- what the byte-transport will answer to the Master's reads (R318; log entry 13) -/
  masterRx : List RxAnswer
  /-- frames written by the Master, oldest first (R318; log entry 14) -/
  masterTx : List (List Byte)
  /-- frames written by the slave datapath, oldest first (R318; log entry 14) -/
  slaveTx : List (List Byte)
  /-- the response port: the result of the last operation (R27; log entry 4) -/
  rsp : Option Result
  /-- how many free values have been used (log entry 15) -/
  freeCtr : Nat
  deriving DecidableEq, Repr

/-- No operation of this block stops the machine: every error is a result value on the response port, after which
the block is ready for the next operation (60_exceptions.md R305, R309; log entry 26). The type has no constructor. -/
inductive Fault where
  deriving DecidableEq, Repr

/-- Operations the spec refuses, that is, gives no meaning (00_scope.md, glossary, "Refuse"). Every one is safe: the
machine stops where the spec says nothing. -/
inductive Refusal where
  /-- an instruction without a meaning, rejected by name in `exec`; no arm raises it (safe) -/
  | notModelled (mnemonic : String)
  /-- a DataStore operation while DS_BUSY: an observer re-enters the store that is notifying it, "undefined, avoid"
  (R310, U1); raised by DS.READ, DS.WRITE, DS.GROW and the slave's DataStore operation (safe) -/
  | reentrantAccess
  /-- an operation before the store exists (R334, log entry 28); raised by DS.READ, DS.WRITE, DS.GROW, OBS.SUBSCRIBE,
  the request rows, SLAVE.EXEC, SLAVE.STEP and MASTER.EXECUTE (safe) -/
  | storeNotCreated
  /-- a second DS.CREATE or DS.LOAD on a live store (R133, R134, U11) (safe) -/
  | storeAlreadyCreated
  /-- MBAP.FRAME, MBAP.UNFRAME or MBAP framing where `MBAP_PRESENT` is false: the operation does not exist (R232)
  (safe) -/
  | mbapAbsent
  /-- MASTER.EXECUTE while a request is outstanding (R276, U6) (safe) -/
  | masterBusy
  /-- framing a PDU outside `1 .. MAX_PDU` (R214, R222, R232, U12); raised by the FRAME operations, and by SLAVE.STEP
  and MASTER.EXECUTE through them (safe) -/
  | pduLength
  /-- a message whose data do not fit a one-byte byte count (R98, R151, R181, U12); raised by the encoders, by a slave
  read whose response would be one, and by an ill-formed message (safe) -/
  | messageTooLong
  /-- DS.WRITE or DS.GROW with values of the other element kind (R132) (safe) -/
  | wrongElementKind (bank : Bank)
  /-- SLAVE.EXEC, RSP.CHECK_EXC or a request presented with an empty PDU: their operand is not empty (R241, R217)
  (safe) -/
  | emptyPdu
  /-- REQ.UNSUPPORTED written with a supported function code, which is no such row (R99); never decoded (safe) -/
  | supportedFunction (fc : Byte)
  /-- a command code outside R103 (safe) -/
  | unknownCommand (code : Byte)
  /-- operands that are not of the shape the command takes (R103) (safe) -/
  | badOperands (code : Byte)
  deriving DecidableEq, Repr

/-- The banks after `DS.CREATE` (40_datastore.md R133). -/
def Memory.create (c : Cfg) : Memory where
  cd := false :: List.replicate c.slotsCD false
  id := false :: List.replicate c.slotsID false
  hr := 0 :: List.replicate c.slotsHR 0
  ir := 0 :: List.replicate c.slotsIR 0

/-- The machine right after reset by `DS.CREATE` under a configuration (10_state.md R37, 70_reset_and_hazards.md
R330, R331). -/
def State.resetWith (c : Cfg) : State where
  cfg := c
  mem := Memory.create c
  created := true
  dsBusy := false
  obsR := []
  obsW := []
  evtR := []
  evtW := []
  mstate := .idle
  attempts := 0
  req := none
  tid := 0
  mtrace := []
  pending := []
  masterRx := []
  masterTx := []
  slaveTx := []
  rsp := none
  freeCtr := 0

/-- The machine right after reset, under the suggested configuration (log entry 6). -/
def State.reset : State := State.resetWith Cfg.default

/-- The machine whose CFG is fixed and whose store does not exist yet: the state in which `DS.CREATE` or `DS.LOAD`
is performed (70_reset_and_hazards.md R330, R334; log entry 8). The banks hold the sentinel alone, which no operation
can see before creation. -/
def State.beforeCreation (c : Cfg) : State :=
  { State.resetWith c with mem := ⟨[false], [false], [0], [0]⟩, created := false }

end Sys2Proof.Machine
end

