-- ==== Sys2Proof/Machine/Operands.lean ====
section
/-! DEFINITION. Conditions on operands: the bounds rule, PDU lengths, quantity limits, the unit filter. -/

namespace Sys2Proof

/-- A quantity within the limits of its function code (44_slave_exec.md R241, step 3). -/
def QtyRange.allows (r : QtyRange) (q : Nat) : Bool := decide (r.min ≤ q) && decide (q ≤ r.max)

end Sys2Proof

namespace Sys2Proof.Machine

/-- `address_to_index(a) = a + 1`: the only translation, and the only place the off-by-one is expressed
(20_memory.md R54). -/
def addressToIndex (a : Nat) : Nat := a + 1

/-- The bounds rule for a bank of storage length `len` (20_memory.md R55), in the naturals (R62). -/
def outOfRange (len start count : Nat) : Bool :=
  decide (addressToIndex start > len) || decide (addressToIndex start + count > len)

/-- The PDU lengths the framers take: `1 .. MAX_PDU` (43_framing.md R214, R222, R232). -/
def pduFits (c : Cfg) (pdu : List Byte) : Bool :=
  decide (1 ≤ pdu.length) && decide (pdu.length ≤ c.maxPdu)

/-- `UNIT_FILTER(unit)` (00_scope.md R7). -/
def unitAccepted (c : Cfg) (unit : Byte) : Bool := c.unitFilter.getLsbD unit.toNat

end Sys2Proof.Machine
end

