-- ==== Sys2Proof/Machine/Ops.lean ====
section
/-! DEFINITION. The shared operations over the banks, the streams and the ports: reading and writing slices, the
DataStore operations with their event, answering, and taking an error or an exception. -/

namespace Sys2Proof

/-- `len(values)`: the number of elements. -/
def Values.length : Values → Nat
  | .bits l => l.length
  | .regs l => l.length

/-- One element of a sequence, a bit or a word; none past the end. -/
def Values.elem? (vs : Values) (k : Nat) : Option (Bool ⊕ Word) :=
  match vs with
  | .bits l => l[k]?.map .inl
  | .regs l => l[k]?.map .inr

end Sys2Proof

namespace Sys2Proof.Machine

/-! ## Slices of one bank -/

/-- `MemRead`: the elements at storage indices `i .. i + n - 1` as a new copy (00_scope.md R10). -/
def slice {α : Type} (l : List α) (i n : Nat) : List α := (l.drop i).take n

/-- `MemWrite`: the elements from storage index `i` on become `vs` (00_scope.md R10). -/
def overwrite {α : Type} (l : List α) (i : Nat) (vs : List α) : List α :=
  l.take i ++ vs ++ l.drop (i + vs.length)

/-! ## Banks -/

/-- The storage of a bank, sentinel first (10_state.md R20). -/
def Memory.bank (m : Memory) : Bank → Values
  | .cd => .bits m.cd
  | .id => .bits m.id
  | .hr => .regs m.hr
  | .ir => .regs m.ir

/-- `len(B)`: the storage length, sentinel included (R20). -/
def Memory.len (m : Memory) (b : Bank) : Nat := (m.bank b).length

/-- `B[i]`: the element at a storage index (R10). -/
def Memory.elem? (m : Memory) (b : Bank) (i : Nat) : Option (Bool ⊕ Word) := (m.bank b).elem? i

/-- `MemRead(B, i, n)`. -/
def Memory.read (m : Memory) (b : Bank) (i n : Nat) : Values :=
  match b with
  | .cd => .bits (slice m.cd i n)
  | .id => .bits (slice m.id i n)
  | .hr => .regs (slice m.hr i n)
  | .ir => .regs (slice m.ir i n)

/-- `MemWrite(B, i, len(vs), vs)`. Values of the other element kind cannot be written (R132): they are refused before
this is reached, and nothing is changed here. -/
def Memory.write (m : Memory) (b : Bank) (i : Nat) (vs : Values) : Memory :=
  match b, vs with
  | .cd, .bits l => { m with cd := overwrite m.cd i l }
  | .id, .bits l => { m with id := overwrite m.id i l }
  | .hr, .regs l => { m with hr := overwrite m.hr i l }
  | .ir, .regs l => { m with ir := overwrite m.ir i l }
  | .cd, .regs _ => m
  | .id, .regs _ => m
  | .hr, .bits _ => m
  | .ir, .bits _ => m

/-- `B <- B ++ values` (40_datastore.md R135). -/
def Memory.grow (m : Memory) (b : Bank) (vs : Values) : Memory :=
  match b, vs with
  | .cd, .bits l => { m with cd := m.cd ++ l }
  | .id, .bits l => { m with id := m.id ++ l }
  | .hr, .regs l => { m with hr := m.hr ++ l }
  | .ir, .regs l => { m with ir := m.ir ++ l }
  | .cd, .regs _ => m
  | .id, .regs _ => m
  | .hr, .bits _ => m
  | .ir, .bits _ => m

/-- The banks after `DS.LOAD` (40_datastore.md R134): the caller's values behind a prepended sentinel. -/
def Memory.load (cd id : List Bool) (hr ir : List Word) : Memory where
  cd := false :: cd
  id := false :: id
  hr := 0 :: hr
  ir := 0 :: ir

/-- `kind(B)` (10_state.md R31). -/
def kindOf : Bank → BankKind
  | .cd => .coil
  | .id => .input
  | .hr => .holdingRegister
  | .ir => .inputRegister

/-! ## Ports, streams, lock -/

/-- The result of an operation on the response port (10_state.md R27). -/
def State.answer (s : State) (r : Result) : State := { s with rsp := some r }

/-- TAKING AN ERROR: `raise E(info)` ends the operation with the error result and changes nothing else
(00_scope.md R10, 60_exceptions.md R305). There is no handler to go to and none to return from (R309). -/
def State.raise (s : State) (e : Error) : State := s.answer (.error e)

/-- The result of a pure operation on the response port: its value, or its error raised. -/
def State.settle (s : State) (r : Except Error Value) : State :=
  match r with
  | .ok v => s.answer (.ok v)
  | .error e => s.raise e

/-- `emit CH(rec)`: append a record to a notification channel (10_state.md R30). -/
def State.emit (s : State) (c : Channel) (e : Event) : State :=
  match c with
  | .readFrom => { s with evtR := s.evtR ++ [e] }
  | .writtenTo => { s with evtW := s.evtW ++ [e] }

/-- DS_BUSY is taken at the bounds check (10_state.md R32). -/
def State.acquire (s : State) : State := { s with dsBusy := true }

/-- DS_BUSY is given back after the notification (10_state.md R32). -/
def State.release (s : State) : State := { s with dsBusy := false }

/-- The banks replaced. -/
def State.setMem (s : State) (m : Memory) : State := { s with mem := m }

/-- A frame handed to the byte-transport's `write` by the slave datapath (60_exceptions.md R318, R319). -/
def State.slaveWrite (s : State) (wire : List Byte) : State := { s with slaveTx := s.slaveTx ++ [wire] }

/-- The next operation the environment has presented, taken off the queue (10_state.md R26). -/
def State.fetch (s : State) : Option (Offer × State) :=
  match s.pending with
  | [] => none
  | o :: rest => some (o, { s with pending := rest })

/-- An operation ends: with the state it reached, or refused. -/
def finish (r : Except Refusal State) : Host.Outcome State Fault Refusal :=
  match r with
  | .ok s => .next s
  | .error e => .refused e

/-! ## The DataStore operations -/

/-- What keeps the store from an operation: it does not exist yet, or an operation on it is in progress
(70_reset_and_hazards.md R334, 60_exceptions.md R310). -/
def storeGuard (s : State) : Except Refusal Unit :=
  if s.created = false then .error .storeNotCreated
  else if s.dsBusy then .error .reentrantAccess
  else .ok ()

/-- `DS.READ B, start, count` as one transition: bounds check, copy, event (40_datastore.md R131). -/
def dsRead (b : Bank) (start count : Nat) (s : State) : State × Except Error Values :=
  if outOfRange (s.mem.len b) start count then (s, .error (.outOfRange b start count))
  else
    let data := s.mem.read b (addressToIndex start) count
    ((s.acquire.emit .readFrom ⟨kindOf b, start, data⟩).release, .ok data)

/-- `DS.WRITE B, start, values` as one transition: bounds check, overwrite, event (40_datastore.md R132). -/
def dsWrite (b : Bank) (start : Nat) (vs : Values) (s : State) : State × Except Error Unit :=
  if outOfRange (s.mem.len b) start vs.length then
    (s, .error (.outOfRange b start vs.length))
  else
    (((s.acquire.setMem (s.mem.write b (addressToIndex start) vs)).emit .writtenTo
      ⟨kindOf b, start, vs⟩).release, .ok ())

/-! ## The exception response -/

/-- `EXC(fc, code)`: what the slave answers in place of a normal response (44_slave_exec.md R250). Building it
changes no state and emits no event. -/
def exceptionReply (fc code : Byte) : Option (List Byte) := some (encodeException fc code)

end Sys2Proof.Machine
end

