-- ==== Sys2Proof/Machine/DataStore.lean ====
section
/-! DEFINITION. The DataStore operations as host commands (40_datastore.md). -/

namespace Sys2Proof.Machine

/-- `DS.READ` (R131). -/
def execDsRead (bank : Bank) (start count : Nat) (s : State) : Host.Outcome State Fault Refusal :=
  finish do
    storeGuard s
    match dsRead bank start count s with
    | (s', .ok data) => .ok (s'.answer (.ok (.data data)))
    | (s', .error e) => .ok (s'.raise e)

/-- `DS.WRITE` (R132); values of the other element kind are refused. -/
def execDsWrite (bank : Bank) (start : Nat) (values : Values) (s : State) : Host.Outcome State Fault Refusal :=
  finish do
    storeGuard s
    if values.fits bank = false then .error (.wrongElementKind bank)
    else
      match dsWrite bank start values s with
      | (s', .ok _) => .ok (s'.answer (.ok .unit))
      | (s', .error e) => .ok (s'.raise e)

/-- `DS.CREATE` (R133): once; on a live store it is refused. Nothing that is refused before creation has been done by
then (R334, log entry 28), so what it leaves is the reset state (R330, R331). -/
def execDsCreate (s : State) : Host.Outcome State Fault Refusal :=
  if s.created then .refused .storeAlreadyCreated
  else .next ({ s with mem := Memory.create s.cfg, created := true }.answer (.ok .unit))

/-- `DS.LOAD` (R134): in place of `DS.CREATE`, once; on a live store it is refused. -/
def execDsLoad (cd id : List Bool) (hr ir : List Word) (s : State) : Host.Outcome State Fault Refusal :=
  if s.created then .refused .storeAlreadyCreated
  else .next ({ s with mem := Memory.load cd id hr ir, created := true }.answer (.ok .unit))

/-- `DS.GROW` (R135): appends, no bounds rule, no event; values of the other element kind are refused. -/
def execDsGrow (bank : Bank) (values : Values) (s : State) : Host.Outcome State Fault Refusal :=
  finish do
    storeGuard s
    if values.fits bank = false then .error (.wrongElementKind bank)
    else .ok ((s.acquire.setMem (s.mem.grow bank values)).release.answer (.ok .unit))

/-- A set of observer identities with one more, strictly rising (log entry 10). -/
def insertObserver (o : Nat) : List Nat → List Nat
  | [] => [o]
  | x :: rest => if o < x then o :: x :: rest else if o = x then x :: rest else x :: insertObserver o rest

/-- `OBS.SUBSCRIBE` (R136). Observers are registered after the store is created (70_reset_and_hazards.md R331; R334,
step 4): before that it is refused (log entry 28). -/
def execObsSubscribe (channel : Channel) (observer : Nat) (s : State) : Host.Outcome State Fault Refusal :=
  if s.created = false then .refused .storeNotCreated
  else
    match channel with
    | .readFrom => .next ({ s with obsR := insertObserver observer s.obsR }.answer (.ok .unit))
    | .writtenTo => .next ({ s with obsW := insertObserver observer s.obsW }.answer (.ok .unit))

end Sys2Proof.Machine
end

