-- ==== Sys2Proof/Machine/Flags.lean ====
section
/-! DEFINITION. The block has no status flags and no condition codes (10_state.md R27). What a frame carries in their
place is an error-check value; this file holds the two generators (43_framing.md R210, R211). -/

namespace Sys2Proof.Machine

/-- One shift of the CRC register: right, with the polynomial where the bit shifted out is 1 (R210). -/
def crcShift (crc : Word) : Word :=
  if crc.getLsbD 0 then (crc >>> 1) ^^^ 0xA001 else crc >>> 1

/-- `n` shifts of the CRC register. -/
def crcShifts : Nat → Word → Word
  | 0, crc => crc
  | n + 1, crc => crcShifts n (crcShift crc)

/-- One byte into the CRC register: into bits 7..0, then eight shifts (R210). -/
def crcByte (crc : Word) (b : Byte) : Word := crcShifts 8 (crc ^^^ b.setWidth 16)

/-- `CRC16 bytes` (R210): from 0xFFFF, no final inversion. -/
def crc16 (bytes : List Byte) : Word := bytes.foldl crcByte 0xFFFF

/-- The sum of all bytes modulo 256 (R211). -/
def byteSum (bytes : List Byte) : Byte := bytes.foldl (· + ·) 0

/-- `LRC bytes` (R211): the two's complement of the sum modulo 256. -/
def lrc (bytes : List Byte) : Byte := -byteSum bytes

end Sys2Proof.Machine
end

