-- ==== Sys2Proof/Machine/Framing.lean ====
section
/-! DEFINITION. The transport framer and its host commands: CRC16, LRC, RTU, ASCII and the optional MBAP framing, and
the exception check of the response path (43_framing.md). -/

namespace Sys2Proof.Machine

/-! ## RTU (R214, R216) -/

/-- The RTU frame of a unit id and a PDU: CRC low byte first (R214). -/
def rtuFrame (unit : Byte) (pdu : List Byte) : List Byte :=
  unit :: pdu ++ le16 (crc16 (unit :: pdu))

/-- `RTU.UNFRAME` (R216): the two length tests, then the CRC. -/
def rtuUnframe (c : Cfg) (wire : List Byte) : Except Error (Byte × List Byte) :=
  let n := wire.length
  let body := wire.take (n - 2)
  if n < 4 then .error (.ioError .length)
  else if n > c.maxPdu + 3 then .error (.ioError .length)
  else if crc16 body ≠ u16be (wire.getD (n - 1) 0) (wire.getD (n - 2) 0) then .error (.ioError .checksum)
  else .ok (body.headD 0, body.drop 1)

/-! ## ASCII (R220 to R224) -/

/-- `HEXCHAR(d)` for a digit 0 to 15 (30_encoding.md R101). -/
def hexChar (d : Byte) : Byte := if d.toNat < 10 then 0x30 + d else 0x37 + d

/-- `HEXVAL(c)`, with lowercase only where it is accepted (R101). -/
def hexVal (lower : Bool) (c : Byte) : Option Byte :=
  if 0x30 ≤ c.toNat ∧ c.toNat ≤ 0x39 then some (c - 0x30)
  else if 0x41 ≤ c.toNat ∧ c.toNat ≤ 0x46 then some (c - 0x37)
  else if lower ∧ 0x61 ≤ c.toNat ∧ c.toNat ≤ 0x66 then some (c - 0x57)
  else none

/-- `HEX.ENC bytes`: two characters a byte, high digit first (R102, R220). -/
def hexEncode (bytes : List Byte) : List Byte :=
  bytes.flatMap fun (b : Byte) => [hexChar (b >>> 4), hexChar (b &&& 0x0F)]

/-- `HEX.DEC chars`: fails on an odd number of characters and on any character that is no digit (R221). -/
def hexDecode (lower : Bool) : List Byte → Option (List Byte)
  | [] => some []
  | [_] => none
  | hi :: lo :: rest =>
    match hexVal lower hi, hexVal lower lo, hexDecode lower rest with
    | some h, some l, some bs => some ((h <<< 4 ||| l) :: bs)
    | _, _, _ => none

/-- The ASCII frame of a unit id and a PDU: the LRC is summed over the binary bytes (R222, R223). -/
def ascFrame (unit : Byte) (pdu : List Byte) : List Byte :=
  0x3A :: hexEncode (unit :: pdu ++ [lrc (unit :: pdu)]) ++ [0x0D, 0x0A]

/-- The decoded bytes of an ASCII frame: PDU length, then the LRC (R224). -/
def ascBytes (c : Cfg) (bytes : List Byte) : Except Error (Byte × List Byte) :=
  let m := bytes.length
  let body := bytes.take (m - 1)
  if m - 2 > c.maxPdu then .error (.ioError .length)
  else if lrc body ≠ bytes.getD (m - 1) 0 then .error (.ioError .checksum)
  else .ok (body.headD 0, body.drop 1)

/-- `ASC.UNFRAME` (R224): length and delimiters, hex decoding, PDU length, LRC. -/
def ascUnframe (c : Cfg) (wire : List Byte) : Except Error (Byte × List Byte) :=
  let n := wire.length
  if n < 9 then .error (.ioError .format)
  else if wire.getD 0 0 ≠ 0x3A then .error (.ioError .format)
  else if wire.getD (n - 2) 0 ≠ 0x0D ∨ wire.getD (n - 1) 0 ≠ 0x0A then .error (.ioError .format)
  else
    match hexDecode c.hexAcceptLower ((wire.take (n - 2)).drop 1) with
    | none => .error (.ioError .hex)
    | some bytes => ascBytes c bytes

/-! ## MBAP (R232, R233) -/

/-- The MBAP frame (R232, 30_encoding.md R83). -/
def mbapFrame (tid : Word) (unit : Byte) (pdu : List Byte) : List Byte :=
  be16 tid ++ [0x00, 0x00] ++ be16 (BitVec.ofNat 16 (pdu.length + 1)) ++ unit :: pdu

/-- `MBAP.UNFRAME` (R233): length, protocol id, declared length. -/
def mbapUnframe : List Byte → Except Error (Word × Byte × List Byte)
  | t1 :: t0 :: p1 :: p0 :: l1 :: l0 :: unit :: p :: pdu =>
    if u16be p1 p0 ≠ 0 then .error (.formatError .protocol)
    else if (u16be l1 l0).toNat ≠ pdu.length + 2 then .error (.formatError .length)
    else .ok (u16be t1 t0, unit, p :: pdu)
  | _ => .error (.formatError .length)

/-! ## The pair selected by `CFG.FRAMING` -/

/-- `FRAME` for `CFG.FRAMING` (44_slave_exec.md R240, 45_master.md R272); the identifier is used by MBAP only. -/
def frameBy (c : Cfg) (tid : Word) (unit : Byte) (pdu : List Byte) : Except Refusal (List Byte) :=
  if c.framing = .mbap ∧ c.mbapPresent = false then .error .mbapAbsent
  else if pduFits c pdu = false then .error .pduLength
  else
    match c.framing with
    | .rtu => .ok (rtuFrame unit pdu)
    | .ascii => .ok (ascFrame unit pdu)
    | .mbap => .ok (mbapFrame tid unit pdu)

/-- `UNFRAME` for `CFG.FRAMING` (R240, R272); the identifier is 0 for the serial framings, which have none. -/
def unframeBy (c : Cfg) (wire : List Byte) : Except Error (Word × Byte × List Byte) :=
  match c.framing with
  | .rtu => (rtuUnframe c wire).map fun u => (0, u.1, u.2)
  | .ascii => (ascUnframe c wire).map fun u => (0, u.1, u.2)
  | .mbap => mbapUnframe wire

/-! ## The response path's exception check (R217) -/

/-- `RSP.CHECK_EXC` of a non-empty PDU (R217). -/
def checkException (pdu : List Byte) : Except Error (List Byte) :=
  if exceptionBit (pdu.headD 0) then
    match pdu with
    | fc :: code :: _ => .error (.slaveException (fc &&& 0x7F) code)
    | _ => .error (.formatError .length)
  else .ok pdu

/-! ## The host commands -/

/-- `CRC16` (R210). -/
def execCrc16 (bytes : List Byte) (s : State) : Host.Outcome State Fault Refusal :=
  .next (s.answer (.ok (.word (crc16 bytes))))

/-- `LRC` (R211). -/
def execLrc (bytes : List Byte) (s : State) : Host.Outcome State Fault Refusal :=
  .next (s.answer (.ok (.byte (lrc bytes))))

/-- `RTU.FRAME` (R214); a PDU outside the length range is refused. -/
def execRtuFrame (unit : Byte) (pdu : List Byte) (s : State) : Host.Outcome State Fault Refusal :=
  if pduFits s.cfg pdu then .next (s.answer (.ok (.bytes (rtuFrame unit pdu)))) else .refused .pduLength

/-- `RTU.UNFRAME` (R216). -/
def execRtuUnframe (wire : List Byte) (s : State) : Host.Outcome State Fault Refusal :=
  .next (s.settle ((rtuUnframe s.cfg wire).map fun u => .unframed u.1 u.2))

/-- `ASC.FRAME` (R222); a PDU outside the length range is refused. -/
def execAscFrame (unit : Byte) (pdu : List Byte) (s : State) : Host.Outcome State Fault Refusal :=
  if pduFits s.cfg pdu then .next (s.answer (.ok (.bytes (ascFrame unit pdu)))) else .refused .pduLength

/-- `ASC.UNFRAME` (R224). -/
def execAscUnframe (wire : List Byte) (s : State) : Host.Outcome State Fault Refusal :=
  .next (s.settle ((ascUnframe s.cfg wire).map fun u => .unframed u.1 u.2))

/-- `MBAP.FRAME` (R232); it does not exist where `MBAP_PRESENT` is false. -/
def execMbapFrame (tid : Word) (unit : Byte) (pdu : List Byte) (s : State) : Host.Outcome State Fault Refusal :=
  if s.cfg.mbapPresent = false then .refused .mbapAbsent
  else if pduFits s.cfg pdu then .next (s.answer (.ok (.bytes (mbapFrame tid unit pdu))))
  else .refused .pduLength

/-- `MBAP.UNFRAME` (R233); it does not exist where `MBAP_PRESENT` is false. -/
def execMbapUnframe (wire : List Byte) (s : State) : Host.Outcome State Fault Refusal :=
  if s.cfg.mbapPresent = false then .refused .mbapAbsent
  else .next (s.settle ((mbapUnframe wire).map fun u => .mbapUnframed u.1 u.2.1 u.2.2))

/-- `RSP.CHECK_EXC` (R217); its operand is the PDU of an unframed response, so it is not empty. -/
def execRspCheckExc (pdu : List Byte) (s : State) : Host.Outcome State Fault Refusal :=
  if pdu.isEmpty then .refused .emptyPdu
  else .next (s.settle ((checkException pdu).map .bytes))

end Sys2Proof.Machine
end

