-- ==== Sys2Proof/Machine/Master.lean ====
section
/-! DEFINITION. The Master sequencer, the host-side contract of the block (45_master.md): the state machine of R270
and R271, and `MASTER.EXECUTE` (R272) as one operation (log entry 12). -/

namespace Sys2Proof.Machine

/-- `mstate <- m` (00_scope.md R10), recorded in the trace. -/
def State.goMaster (s : State) (m : MState) : State := { s with mstate := m, mtrace := s.mtrace ++ [m] }

/-- What an attempt comes to: the validated response, an error the retry budget covers, or a terminal error
(R271). -/
inductive Verdict where
  | done (m : Response)
  | retry (e : Error)
  | fail (e : Error)
  deriving DecidableEq, Repr

/-- The byte-transport's answer to one receive; where the environment delivers nothing the deadline passes
(R273, 60_exceptions.md R316; log entry 13). -/
def State.receive (s : State) : RxAnswer × State :=
  match s.masterRx with
  | [] => (.timeout, s)
  | a :: rest => (a, { s with masterRx := rest })

/-- `Validating`: unframe, unit id where it is checked, exception test, parse as the expected response
(R271, R272). -/
def masterValidate (c : Cfg) (unit : Byte) (expect : Expect) (wire : List Byte) : Verdict :=
  match unframeBy c wire with
  | .error e => .retry e
  | .ok (_, unit', pdu) =>
    if c.masterCheckUnit ∧ unit' ≠ unit then .fail (.formatError (.unit unit unit'))
    else
      match checkException pdu with
      | .error e => .fail e
      | .ok p =>
        match decodeResponse p expect with
        | .error e => .fail e
        | .ok m => .done m

/-- One attempt: `Sending`, `AwaitingResponse`, and `Validating` where a candidate frame arrives (R271). -/
def masterAttempt (wire : List Byte) (unit : Byte) (expect : Expect) (s : State) : Verdict × State :=
  let sent := s.goMaster .sending
  let waiting := { sent with masterTx := sent.masterTx ++ [wire], attempts := sent.attempts + 1 }.goMaster
    .awaitingResponse
  match waiting.receive with
  | (.timeout, s') => (.retry .timeoutError, s')
  | (.frame w, s') => (masterValidate s.cfg unit expect w, s'.goMaster .validating)

/-- `Validating -> Idle`: the request is no longer outstanding (R271; log entry 17). -/
def State.masterDone (s : State) (m : Response) : State :=
  { s.goMaster .idle with req := none }.answer (.ok (.response m))

/-- `Failed -> Idle`: the terminal error is returned (R271; log entry 17). -/
def State.masterFail (s : State) (e : Error) : State :=
  { (s.goMaster .failed).goMaster .idle with req := none }.raise e

/-- The attempts of one request. The first argument bounds the retries left; `attempts <= RETRIES` decides whether
there is another (R271, R272). -/
def masterLoop (wire : List Byte) (unit : Byte) (expect : Expect) : Nat → State → State
  | 0, s =>
    match masterAttempt wire unit expect s with
    | (.done m, s') => s'.masterDone m
    | (.retry e, s') => s'.masterFail e
    | (.fail e, s') => s'.masterFail e
  | n + 1, s =>
    match masterAttempt wire unit expect s with
    | (.done m, s') => s'.masterDone m
    | (.fail e, s') => s'.masterFail e
    | (.retry e, s') =>
      if s'.attempts ≤ s'.cfg.retries then masterLoop wire unit expect n (s'.goMaster .retrying)
      else s'.masterFail e

/-- The transaction identifier of the next request: a free value under MBAP framing, unused otherwise (R34;
log entry 15). -/
def State.nextTid (s : State) : Word :=
  if s.cfg.framing = .mbap then Config.freeTid s.freeCtr else s.tid

/-- `Idle`, `MASTER.EXECUTE`: the request becomes the outstanding one, no send made yet (R271). -/
def State.masterBegin (s : State) (m : Request) : State :=
  { s with req := some m, attempts := 0, tid := s.nextTid,
           freeCtr := if s.cfg.framing = .mbap then s.freeCtr + 1 else s.freeCtr }

/-- `MASTER.EXECUTE` (R272). It is refused while a request is outstanding (R276), before the store is created
(70_reset_and_hazards.md R334, step 6; log entry 28), and where the request cannot be encoded or framed. -/
def execMasterExecute (unit : Byte) (request : Request) (s : State) : Host.Outcome State Fault Refusal :=
  if s.mstate ≠ .idle then .refused .masterBusy
  else if s.created = false then .refused .storeNotCreated
  else if request.wf = false then .refused .messageTooLong
  else
    match frameBy s.cfg s.nextTid unit (encodeRequest request) with
    | .error r => .refused r
    | .ok wire => .next (masterLoop wire unit request.expect s.cfg.retries (s.masterBegin request))

end Sys2Proof.Machine
end

