-- ==== Sys2Proof/Machine/Codec.lean ====
section
/-! DEFINITION. The PDU codec as instructions: the host commands `PDU.*` (41_pdu_requests.md, 42_pdu_responses.md) and
the rows of the response space. The encodings themselves are in Decode.lean. -/

namespace Sys2Proof.Machine

/-! ## Host commands -/

/-- `PDU.ENC_REQ` (R151); a message that is not well formed is refused. -/
def execPduEncReq (m : Request) (s : State) : Host.Outcome State Fault Refusal :=
  if m.wf then .next (s.answer (.ok (.bytes (encodeRequest m)))) else .refused .messageTooLong

/-- `PDU.DEC_REQ` (R152). -/
def execPduDecReq (bytes : List Byte) (s : State) : Host.Outcome State Fault Refusal :=
  .next (s.settle (((decodeRequest bytes).mapError .formatError).map .request))

/-- `PDU.ENC_RSP` (R181); a message that is not well formed is refused. -/
def execPduEncRsp (m : Response) (s : State) : Host.Outcome State Fault Refusal :=
  if m.wf then .next (s.answer (.ok (.bytes (encodeResponse m)))) else .refused .messageTooLong

/-- `PDU.DEC_RSP` (R182). -/
def execPduDecRsp (bytes : List Byte) (expect : Expect) (s : State) : Host.Outcome State Fault Refusal :=
  .next (s.settle ((decodeResponse bytes expect).map .response))

/-- `PDU.ENC_EXC` (R199). -/
def execPduEncExc (fc code : Byte) (s : State) : Host.Outcome State Fault Refusal :=
  .next (s.answer (.ok (.bytes (encodeException fc code))))

/-! ## Response rows

A response PDU of known layout, read by a caller with an expectation: the function code is compared first, then what
the expected quantity requires (R182, R298; log entry 24). -/

/-- The function-code match of R182 before the outcome of a row's own checks. -/
def ifExpected (f : FuncCode) (expect : Expect) (r : Except FormatReason Response) : Except Error Value :=
  if f.toByte ≠ expect.fc.toByte then .error (.formatError (.function f.toByte))
  else (r.mapError .formatError).map .response

/-- RSP.READ_COILS (R184). -/
def execRspReadCoils (expect : Expect) (data : List Byte) (s : State) : Host.Outcome State Fault Refusal :=
  if data.length > 255 then .refused .messageTooLong
  else .next (s.settle (ifExpected .readCoils expect ((expectBits expect.qty data).map .readCoils)))

/-- RSP.READ_DISCRETE_INPUTS (R186). -/
def execRspReadDiscreteInputs (expect : Expect) (data : List Byte) (s : State) : Host.Outcome State Fault Refusal :=
  if data.length > 255 then .refused .messageTooLong
  else .next (s.settle (ifExpected .readDiscreteInputs expect
    ((expectBits expect.qty data).map .readDiscreteInputs)))

/-- RSP.READ_HOLDING_REGISTERS (R188). -/
def execRspReadHoldingRegisters (expect : Expect) (values : List Word) (s : State) :
    Host.Outcome State Fault Refusal :=
  if values.length > 127 then .refused .messageTooLong
  else .next (s.settle (ifExpected .readHoldingRegisters expect
    ((expectRegs expect.qty values).map .readHoldingRegisters)))

/-- RSP.READ_INPUT_REGISTERS (R190). -/
def execRspReadInputRegisters (expect : Expect) (values : List Word) (s : State) :
    Host.Outcome State Fault Refusal :=
  if values.length > 127 then .refused .messageTooLong
  else .next (s.settle (ifExpected .readInputRegisters expect
    ((expectRegs expect.qty values).map .readInputRegisters)))

/-- RSP.WRITE_SINGLE_COIL (R192). -/
def execRspWriteSingleCoil (expect : Expect) (address : Word) (value : Bool) (s : State) :
    Host.Outcome State Fault Refusal :=
  .next (s.settle (ifExpected .writeSingleCoil expect (.ok (.writeSingleCoil address value))))

/-- RSP.WRITE_SINGLE_REGISTER (R194). -/
def execRspWriteSingleRegister (expect : Expect) (address value : Word) (s : State) :
    Host.Outcome State Fault Refusal :=
  .next (s.settle (ifExpected .writeSingleRegister expect (.ok (.writeSingleRegister address value))))

/-- RSP.WRITE_MULTIPLE_COILS (R196). -/
def execRspWriteMultipleCoils (expect : Expect) (start quantity : Word) (s : State) :
    Host.Outcome State Fault Refusal :=
  .next (s.settle (ifExpected .writeMultipleCoils expect (.ok (.writeMultipleCoils start quantity))))

/-- RSP.WRITE_MULTIPLE_REGISTERS (R198). -/
def execRspWriteMultipleRegisters (expect : Expect) (start quantity : Word) (s : State) :
    Host.Outcome State Fault Refusal :=
  .next (s.settle (ifExpected .writeMultipleRegisters expect (.ok (.writeMultipleRegisters start quantity))))

/-- RSP.EXCEPTION (R182, R200): whatever is expected, the slave's exception is raised. -/
def execRspException (fc code : Byte) (s : State) : Host.Outcome State Fault Refusal :=
  .next (s.raise (.slaveException (fc &&& 0x7F) code))

end Sys2Proof.Machine
end

