-- ==== Sys2Proof/Machine/Slave.lean ====
section
/-! DEFINITION. The slave datapath: the request rows, `SLAVE.EXEC` and `SLAVE.STEP` (44_slave_exec.md). -/

namespace Sys2Proof.Machine

/-- An answer of the slave: the state reached and the response PDU, an exception PDU, or none. -/
abbrev SlaveAnswer := Except Refusal (State × Option (List Byte))

/-- The limits of a function code that has a quantity (R241, step 3). -/
def qtyRange (c : Cfg) : FuncCode → Option QtyRange
  | .readCoils => some c.qtyReadCoils
  | .readDiscreteInputs => some c.qtyReadDiscreteInputs
  | .readHoldingRegisters => some c.qtyReadHoldingRegisters
  | .readInputRegisters => some c.qtyReadInputRegisters
  | .writeMultipleCoils => some c.qtyWriteMultipleCoils
  | .writeMultipleRegisters => some c.qtyWriteMultipleRegisters
  | .writeSingleCoil => none
  | .writeSingleRegister => none

/-- The quantity test of a function code (R241, step 3). -/
def quantityAllowed (c : Cfg) (f : FuncCode) (q : Nat) : Bool :=
  match qtyRange c f with
  | none => true
  | some r => r.allows q

/-- The response message a read request answers with, from the data read (R242 to R245). -/
def readResponse (f : FuncCode) (vs : Values) : Option Response :=
  match f, vs with
  | .readCoils, .bits l => some (.readCoils l)
  | .readDiscreteInputs, .bits l => some (.readDiscreteInputs l)
  | .readHoldingRegisters, .regs l => some (.readHoldingRegisters l)
  | .readInputRegisters, .regs l => some (.readInputRegisters l)
  | _, _ => none

/-- A read request at the slave: quantity, then the one DataStore operation, then the response (R241 to R245). -/
def slaveRead (f : FuncCode) (b : Bank) (start quantity : Word) (s : State) : SlaveAnswer :=
  if quantityAllowed s.cfg f quantity.toNat = false then
    .ok (s, exceptionReply f.toByte s.cfg.excIllegalDataValue)
  else do
    storeGuard s
    match dsRead b start.toNat quantity.toNat s with
    | (s', .error _) => .ok (s', exceptionReply f.toByte s.cfg.excIllegalDataAddress)
    | (s', .ok vs) =>
      match readResponse f vs with
      | none => .error .messageTooLong
      | some m => if m.wf then .ok (s', some (encodeResponse m)) else .error .messageTooLong

/-- A write request at the slave: quantity, then the one DataStore operation, then the response
(R241, R246 to R249). -/
def slaveWrite (f : FuncCode) (b : Bank) (start : Word) (vs : Values) (m : Response) (s : State) : SlaveAnswer :=
  if quantityAllowed s.cfg f vs.length = false then
    .ok (s, exceptionReply f.toByte s.cfg.excIllegalDataValue)
  else do
    storeGuard s
    match dsWrite b start.toNat vs s with
    | (s', .error _) => .ok (s', exceptionReply f.toByte s.cfg.excIllegalDataAddress)
    | (s', .ok _) => .ok (s', some (encodeResponse m))

/-- 0x01 ReadCoils (R242). -/
def slaveReadCoils (start quantity : Word) (s : State) : SlaveAnswer :=
  slaveRead .readCoils .cd start quantity s

/-- 0x02 ReadDiscreteInputs (R243). -/
def slaveReadDiscreteInputs (start quantity : Word) (s : State) : SlaveAnswer :=
  slaveRead .readDiscreteInputs .id start quantity s

/-- 0x03 ReadHoldingRegisters (R244). -/
def slaveReadHoldingRegisters (start quantity : Word) (s : State) : SlaveAnswer :=
  slaveRead .readHoldingRegisters .hr start quantity s

/-- 0x04 ReadInputRegisters (R245). -/
def slaveReadInputRegisters (start quantity : Word) (s : State) : SlaveAnswer :=
  slaveRead .readInputRegisters .ir start quantity s

/-- 0x05 WriteSingleCoil: the response is the request echoed back (R246, 92_eei_decisions.md D39). -/
def slaveWriteSingleCoil (address : Word) (value : Bool) (s : State) : SlaveAnswer :=
  slaveWrite .writeSingleCoil .cd address (.bits [value]) (.writeSingleCoil address value) s

/-- 0x06 WriteSingleRegister: the response is the request echoed back (R247). -/
def slaveWriteSingleRegister (address value : Word) (s : State) : SlaveAnswer :=
  slaveWrite .writeSingleRegister .hr address (.regs [value]) (.writeSingleRegister address value) s

/-- 0x0F WriteMultipleCoils (R248); a message that is not well formed has no meaning. -/
def slaveWriteMultipleCoils (start : Word) (values : List Bool) (s : State) : SlaveAnswer :=
  if values.length > 2040 then .error .messageTooLong
  else slaveWrite .writeMultipleCoils .cd start (.bits values)
    (.writeMultipleCoils start (BitVec.ofNat 16 values.length)) s

/-- 0x10 WriteMultipleRegisters (R249); a message that is not well formed has no meaning. -/
def slaveWriteMultipleRegisters (start : Word) (values : List Word) (s : State) : SlaveAnswer :=
  if values.length > 127 then .error .messageTooLong
  else slaveWrite .writeMultipleRegisters .hr start (.regs values)
    (.writeMultipleRegisters start (BitVec.ofNat 16 values.length)) s

/-- A decoded request at the slave: steps 3 to 5 of R241. -/
def slaveRequest (m : Request) (s : State) : SlaveAnswer :=
  match m with
  | .readCoils start q => slaveReadCoils start q s
  | .readDiscreteInputs start q => slaveReadDiscreteInputs start q s
  | .readHoldingRegisters start q => slaveReadHoldingRegisters start q s
  | .readInputRegisters start q => slaveReadInputRegisters start q s
  | .writeSingleCoil address value => slaveWriteSingleCoil address value s
  | .writeSingleRegister address value => slaveWriteSingleRegister address value s
  | .writeMultipleCoils start values => slaveWriteMultipleCoils start values s
  | .writeMultipleRegisters start values => slaveWriteMultipleRegisters start values s

/-- An unsupported function code: the rest of the PDU is not examined (R252). -/
def slaveUnsupported (fc : Byte) (s : State) : SlaveAnswer :=
  .ok (s, exceptionReply fc s.cfg.excIllegalFunction)

/-- A request PDU that fits no layout of its function code: `MALFORMED_REQUEST_POLICY` (R251). -/
def slaveMalformed (fc : Byte) (s : State) : SlaveAnswer :=
  match s.cfg.malformedPolicy with
  | .drop => .ok (s, none)
  | .exception code => .ok (s, exceptionReply fc code)

/-- A request PDU `PDU.DEC_REQ` reports (R241, steps 1 and 2): the unsupported function code, the bad coil value,
which never follows the drop policy (R246), and the malformed PDU. -/
def slaveRejected (pdu : List Byte) (r : FormatReason) (s : State) : SlaveAnswer :=
  match r with
  | .empty => .error .emptyPdu
  | .function fc => slaveUnsupported fc s
  | .coilValue _ => .ok (s, exceptionReply (pdu.headD 0) s.cfg.excIllegalDataValue)
  | .length => slaveMalformed (pdu.headD 0) s
  | .byteCount => slaveMalformed (pdu.headD 0) s
  | .protocol => slaveMalformed (pdu.headD 0) s
  | .unit _ _ => slaveMalformed (pdu.headD 0) s

/-- `SLAVE.EXEC` (R241). -/
def slaveExec (pdu : List Byte) (s : State) : SlaveAnswer :=
  match decodeRequest pdu with
  | .ok m => slaveRequest m s
  | .error r => slaveRejected pdu r s

/-- The response PDU in a frame with the request's unit id, handed to the byte-transport; none stays silence
(R240, R253). -/
def slaveReply (tid : Word) (unit : Byte) (s : State) (rsp : Option (List Byte)) : SlaveAnswer :=
  match rsp with
  | none => .ok (s, none)
  | some pdu =>
    match frameBy s.cfg tid unit pdu with
    | .error r => .error r
    | .ok wire => .ok (s.slaveWrite wire, some wire)

/-- `SLAVE.STEP` (R240): an integrity failure and a unit id that is not answered are dropped in silence (R307). Under
MBAP framing the response carries the request's transaction identifier (log entry 16). -/
def slaveStep (wire : List Byte) (s : State) : SlaveAnswer :=
  if s.cfg.framing = .mbap ∧ s.cfg.mbapPresent = false then .error .mbapAbsent
  else
    match unframeBy s.cfg wire with
    | .error _ => .ok (s, none)
    | .ok (tid, unit, pdu) =>
      if unitAccepted s.cfg unit = false then .ok (s, none)
      else
        match slaveExec pdu s with
        | .error r => .error r
        | .ok (s', rsp) => slaveReply tid unit s' rsp

/-! ## The instructions -/

/-- The slave's answer on the response port. Nothing is handed to the slave before the store exists
(70_reset_and_hazards.md R334, step 6): its operations are refused then, also where the answer would not come from the
store (log entry 28). -/
def answerSlave (answer : State → SlaveAnswer) (s : State) : Host.Outcome State Fault Refusal :=
  if s.created = false then .refused .storeNotCreated
  else
    match answer s with
    | .error e => .refused e
    | .ok (s', rsp) => .next (s'.answer (.ok (.reply rsp)))

/-- REQ.READ_COILS (R242; log entry 25). -/
def execReqReadCoils (start quantity : Word) (s : State) : Host.Outcome State Fault Refusal :=
  answerSlave (slaveReadCoils start quantity) s

/-- REQ.READ_DISCRETE_INPUTS (R243). -/
def execReqReadDiscreteInputs (start quantity : Word) (s : State) : Host.Outcome State Fault Refusal :=
  answerSlave (slaveReadDiscreteInputs start quantity) s

/-- REQ.READ_HOLDING_REGISTERS (R244). -/
def execReqReadHoldingRegisters (start quantity : Word) (s : State) : Host.Outcome State Fault Refusal :=
  answerSlave (slaveReadHoldingRegisters start quantity) s

/-- REQ.READ_INPUT_REGISTERS (R245). -/
def execReqReadInputRegisters (start quantity : Word) (s : State) : Host.Outcome State Fault Refusal :=
  answerSlave (slaveReadInputRegisters start quantity) s

/-- REQ.WRITE_SINGLE_COIL (R246). -/
def execReqWriteSingleCoil (address : Word) (value : Bool) (s : State) : Host.Outcome State Fault Refusal :=
  answerSlave (slaveWriteSingleCoil address value) s

/-- REQ.WRITE_SINGLE_REGISTER (R247). -/
def execReqWriteSingleRegister (address value : Word) (s : State) : Host.Outcome State Fault Refusal :=
  answerSlave (slaveWriteSingleRegister address value) s

/-- REQ.WRITE_MULTIPLE_COILS (R248). -/
def execReqWriteMultipleCoils (start : Word) (values : List Bool) (s : State) : Host.Outcome State Fault Refusal :=
  answerSlave (slaveWriteMultipleCoils start values) s

/-- REQ.WRITE_MULTIPLE_REGISTERS (R249). -/
def execReqWriteMultipleRegisters (start : Word) (values : List Word) (s : State) :
    Host.Outcome State Fault Refusal :=
  answerSlave (slaveWriteMultipleRegisters start values) s

/-- REQ.UNSUPPORTED (R252). -/
def execReqUnsupported (fc : Byte) (s : State) : Host.Outcome State Fault Refusal :=
  if unsupportedByte fc then answerSlave (slaveUnsupported fc) s else .refused (.supportedFunction fc)

/-- `SLAVE.EXEC` (R241). -/
def execSlaveExec (pdu : List Byte) (s : State) : Host.Outcome State Fault Refusal :=
  answerSlave (slaveExec pdu) s

/-- `SLAVE.STEP` (R240). -/
def execSlaveStep (wire : List Byte) (s : State) : Host.Outcome State Fault Refusal :=
  answerSlave (slaveStep wire) s

end Sys2Proof.Machine
end

