-- ==== Sys2Proof/Machine/Reject.lean ====
section
/-! DEFINITION. What the block does with something presented that is no instruction: in the request space the slave
answers it (44_slave_exec.md R241, R246, R251), in the response space the response decoder reports it
(42_pdu_responses.md R182), on the command port it has no meaning (30_encoding.md R103; log entry 22). -/

namespace Sys2Proof.Machine

/-- What is presented and does not decode. -/
def rejectOffer (o : Offer) (e : DecodeError) (s : State) : Host.Outcome State Fault Refusal :=
  match o, e with
  | .request pdu, .request r => answerSlave (slaveRejected pdu r) s
  | .response pdu expect, _ => .next (s.settle ((decodeResponse pdu expect).map .response))
  | _, .unknownCommand code => .refused (.unknownCommand code)
  | .command code _, _ => .refused (.badOperands code)
  | .request pdu, _ => answerSlave (slaveExec pdu) s

end Sys2Proof.Machine
end

