-- ==== Sys2Proof/Machine/Dispatch.lean ====
section
/-! DEFINITION. The dispatch from an instruction to its meaning: one arm for each row of spec/opcode_table.json. -/

namespace Sys2Proof.Machine

def exec (i : Instr) (s : State) : Host.Outcome State Fault Refusal :=
  match i with
  | .reqReadCoils start quantity => Sys2Proof.Machine.execReqReadCoils start quantity s
  | .reqReadDiscreteInputs start quantity => Sys2Proof.Machine.execReqReadDiscreteInputs start quantity s
  | .reqReadHoldingRegisters start quantity => Sys2Proof.Machine.execReqReadHoldingRegisters start quantity s
  | .reqReadInputRegisters start quantity => Sys2Proof.Machine.execReqReadInputRegisters start quantity s
  | .reqWriteSingleCoil address value => Sys2Proof.Machine.execReqWriteSingleCoil address value s
  | .reqWriteSingleRegister address value => Sys2Proof.Machine.execReqWriteSingleRegister address value s
  | .reqWriteMultipleCoils start values => Sys2Proof.Machine.execReqWriteMultipleCoils start values s
  | .reqWriteMultipleRegisters start values => Sys2Proof.Machine.execReqWriteMultipleRegisters start values s
  | .rspReadCoils expect data => Sys2Proof.Machine.execRspReadCoils expect data s
  | .rspReadDiscreteInputs expect data => Sys2Proof.Machine.execRspReadDiscreteInputs expect data s
  | .rspReadHoldingRegisters expect values => Sys2Proof.Machine.execRspReadHoldingRegisters expect values s
  | .rspReadInputRegisters expect values => Sys2Proof.Machine.execRspReadInputRegisters expect values s
  | .rspWriteSingleCoil expect address value => Sys2Proof.Machine.execRspWriteSingleCoil expect address value s
  | .rspWriteSingleRegister expect address value => Sys2Proof.Machine.execRspWriteSingleRegister expect address value s
  | .rspWriteMultipleCoils expect start quantity => Sys2Proof.Machine.execRspWriteMultipleCoils expect start quantity s
  | .rspWriteMultipleRegisters expect start quantity => Sys2Proof.Machine.execRspWriteMultipleRegisters expect start quantity s
  | .rspException fc code => Sys2Proof.Machine.execRspException fc code s
  | .reqUnsupported fc => Sys2Proof.Machine.execReqUnsupported fc s
  | .crc16 bytes => Sys2Proof.Machine.execCrc16 bytes s
  | .lrc bytes => Sys2Proof.Machine.execLrc bytes s
  | .rtuFrame unit pdu => Sys2Proof.Machine.execRtuFrame unit pdu s
  | .rtuUnframe wire => Sys2Proof.Machine.execRtuUnframe wire s
  | .ascFrame unit pdu => Sys2Proof.Machine.execAscFrame unit pdu s
  | .ascUnframe wire => Sys2Proof.Machine.execAscUnframe wire s
  | .mbapFrame tid unit pdu => Sys2Proof.Machine.execMbapFrame tid unit pdu s
  | .mbapUnframe wire => Sys2Proof.Machine.execMbapUnframe wire s
  | .rspCheckExc pdu => Sys2Proof.Machine.execRspCheckExc pdu s
  | .pduEncReq m => Sys2Proof.Machine.execPduEncReq m s
  | .pduDecReq bytes => Sys2Proof.Machine.execPduDecReq bytes s
  | .pduEncRsp m => Sys2Proof.Machine.execPduEncRsp m s
  | .pduDecRsp bytes expect => Sys2Proof.Machine.execPduDecRsp bytes expect s
  | .pduEncExc fc code => Sys2Proof.Machine.execPduEncExc fc code s
  | .dsRead bank start count => Sys2Proof.Machine.execDsRead bank start count s
  | .dsWrite bank start values => Sys2Proof.Machine.execDsWrite bank start values s
  | .dsCreate => Sys2Proof.Machine.execDsCreate s
  | .dsLoad cd id hr ir => Sys2Proof.Machine.execDsLoad cd id hr ir s
  | .dsGrow bank values => Sys2Proof.Machine.execDsGrow bank values s
  | .obsSubscribe channel observer => Sys2Proof.Machine.execObsSubscribe channel observer s
  | .slaveStep wire => Sys2Proof.Machine.execSlaveStep wire s
  | .slaveExec pdu => Sys2Proof.Machine.execSlaveExec pdu s
  | .masterExecute unit request => Sys2Proof.Machine.execMasterExecute unit request s

end Sys2Proof.Machine
end

