-- ==== Sys2Proof/Machine/Step.lean ====
section
/-! DEFINITION. One step of the machine: the next operation presented is fetched, decoded and performed
(10_state.md R26); with nothing presented the block stays idle (70_reset_and_hazards.md R332). -/

namespace Sys2Proof.Machine

/-- One step. -/
def step (s : State) : Host.Outcome State Fault Refusal :=
  match s.fetch with
  | none => .next s
  | some (o, s') =>
    match decode o with
    | .ok i => exec i s'
    | .error e => rejectOffer o e s'

/-- The state in which a row's instruction is the next one presented (log entries 1, 2). -/
def State.withFetchWord (s : State) (nbits w : Nat) : State :=
  { s with pending := tableOffer nbits w :: s.pending }

end Sys2Proof.Machine
end

