-- ==== Sys2Proof/Safety.lean ====
section
/-! DEFINITION. What counts as a good state and as a safe step, in the terms the statements use. -/

namespace Sys2Proof

/-- The framer and codec operations and the response rows: pure functions of their operands and of CFG
(10_state.md R35). -/
def Instr.isPure : Instr → Bool
  | .crc16 _ | .lrc _ | .rtuFrame _ _ | .rtuUnframe _ | .ascFrame _ _ | .ascUnframe _ | .mbapFrame _ _ _
  | .mbapUnframe _ | .rspCheckExc _ | .pduEncReq _ | .pduDecReq _ | .pduEncRsp _ | .pduDecRsp _ _ | .pduEncExc _ _
  | .rspReadCoils _ _ | .rspReadDiscreteInputs _ _ | .rspReadHoldingRegisters _ _ | .rspReadInputRegisters _ _
  | .rspWriteSingleCoil _ _ _ | .rspWriteSingleRegister _ _ _ | .rspWriteMultipleCoils _ _ _
  | .rspWriteMultipleRegisters _ _ _ | .rspException _ _ => true
  | .reqReadCoils _ _ | .reqReadDiscreteInputs _ _ | .reqReadHoldingRegisters _ _ | .reqReadInputRegisters _ _
  | .reqWriteSingleCoil _ _ | .reqWriteSingleRegister _ _ | .reqWriteMultipleCoils _ _
  | .reqWriteMultipleRegisters _ _ | .reqUnsupported _ | .dsRead _ _ _ | .dsWrite _ _ _ | .dsCreate
  | .dsLoad _ _ _ _ | .dsGrow _ _ | .obsSubscribe _ _ | .slaveStep _ | .slaveExec _ | .masterExecute _ _ => false

/-- What reaches the DataStore from the wire: the request rows, `SLAVE.EXEC` and `SLAVE.STEP`
(60_exceptions.md R314). -/
def Instr.fromWire : Instr → Bool
  | .reqReadCoils _ _ | .reqReadDiscreteInputs _ _ | .reqReadHoldingRegisters _ _ | .reqReadInputRegisters _ _
  | .reqWriteSingleCoil _ _ | .reqWriteSingleRegister _ _ | .reqWriteMultipleCoils _ _
  | .reqWriteMultipleRegisters _ _ | .reqUnsupported _ | .slaveStep _ | .slaveExec _ => true
  | .crc16 _ | .lrc _ | .rtuFrame _ _ | .rtuUnframe _ | .ascFrame _ _ | .ascUnframe _ | .mbapFrame _ _ _
  | .mbapUnframe _ | .rspCheckExc _ | .pduEncReq _ | .pduDecReq _ | .pduEncRsp _ | .pduDecRsp _ _ | .pduEncExc _ _
  | .rspReadCoils _ _ | .rspReadDiscreteInputs _ _ | .rspReadHoldingRegisters _ _ | .rspReadInputRegisters _ _
  | .rspWriteSingleCoil _ _ _ | .rspWriteSingleRegister _ _ _ | .rspWriteMultipleCoils _ _ _
  | .rspWriteMultipleRegisters _ _ _ | .rspException _ _ | .dsRead _ _ _ | .dsWrite _ _ _ | .dsCreate
  | .dsLoad _ _ _ _ | .dsGrow _ _ | .obsSubscribe _ _ | .masterExecute _ _ => false

/-- The rows of the bank table that change elements (W), lengths (L) or all banks, for a bank (10_state.md R25);
`SLAVE.EXEC` and `SLAVE.STEP` perform the wire-level writes. -/
def Instr.changesBank (b : Bank) : Instr → Bool
  | .dsWrite b' _ _ | .dsGrow b' _ => b' == b
  | .dsCreate | .dsLoad _ _ _ _ => true
  | .reqWriteSingleCoil _ _ | .reqWriteMultipleCoils _ _ => b == .cd
  | .reqWriteSingleRegister _ _ | .reqWriteMultipleRegisters _ _ => b == .hr
  | .slaveStep _ | .slaveExec _ => b == .cd || b == .hr
  | .reqReadCoils _ _ | .reqReadDiscreteInputs _ _ | .reqReadHoldingRegisters _ _ | .reqReadInputRegisters _ _
  | .reqUnsupported _ | .dsRead _ _ _ | .obsSubscribe _ _ | .masterExecute _ _
  | .crc16 _ | .lrc _ | .rtuFrame _ _ | .rtuUnframe _ | .ascFrame _ _ | .ascUnframe _ | .mbapFrame _ _ _
  | .mbapUnframe _ | .rspCheckExc _ | .pduEncReq _ | .pduDecReq _ | .pduEncRsp _ | .pduDecRsp _ _ | .pduEncExc _ _
  | .rspReadCoils _ _ | .rspReadDiscreteInputs _ _ | .rspReadHoldingRegisters _ _ | .rspReadInputRegisters _ _
  | .rspWriteSingleCoil _ _ _ | .rspWriteSingleRegister _ _ _ | .rspWriteMultipleCoils _ _ _
  | .rspWriteMultipleRegisters _ _ _ | .rspException _ _ => false

end Sys2Proof

namespace Sys2Proof.Machine

/-- The store can take an operation: it exists and no operation on it is in progress (70_reset_and_hazards.md R334,
10_state.md R32). -/
abbrev State.StoreReady (s : State) : Prop := s.created = true ∧ s.dsBusy = false

/-- The element kind of an event's data is that of its bank kind (10_state.md R31). -/
def Event.wf (e : Event) : Bool :=
  match e.kind, e.data with
  | .coil, .bits _ => true
  | .input, .bits _ => true
  | .holdingRegister, .regs _ => true
  | .inputRegister, .regs _ => true
  | .coil, .regs _ => false
  | .input, .regs _ => false
  | .holdingRegister, .bits _ => false
  | .inputRegister, .bits _ => false

/-- The arrows of the Master's state machine (45_master.md R270, R271). -/
def MState.arrow : MState → MState → Bool
  | .idle, .sending => true
  | .sending, .awaitingResponse => true
  | .awaitingResponse, .validating => true
  | .awaitingResponse, .retrying => true
  | .awaitingResponse, .failed => true
  | .validating, .idle => true
  | .validating, .retrying => true
  | .validating, .failed => true
  | .retrying, .sending => true
  | .failed, .idle => true
  | _, _ => false

/-- A sequence of Master states in which every one follows the one before by an arrow. -/
def MState.path : MState → List MState → Bool
  | _, [] => true
  | m, n :: rest => m.arrow n && path n rest

/-- The error of an attempt that the retry budget covers: the deadline passed, or the frame failed its integrity
check (45_master.md R271, R275). -/
def RxAnswer.transportError? (c : Cfg) : RxAnswer → Option Error
  | .timeout => some .timeoutError
  | .frame wire =>
    match unframeBy c wire with
    | .error e => some e
    | .ok _ => none

/-- What an intact frame comes to at the Master: the unit id where it is checked, then the response decoder
(45_master.md R272; 42_pdu_responses.md R182, R200). -/
def RxAnswer.intactResult (c : Cfg) (unit : Byte) (expect : Expect) : RxAnswer → Option Result
  | .timeout => none
  | .frame wire =>
    match unframeBy c wire with
    | .error _ => none
    | .ok (_, unit', pdu) =>
      if c.masterCheckUnit = true ∧ unit' ≠ unit then some (.error (.formatError (.unit unit unit')))
      else
        match decodeResponse pdu expect with
        | .ok m => some (.ok (.response m))
        | .error e => some (.error e)

end Sys2Proof.Machine

namespace Sys2Proof

/-- Every response of the slave can be encoded and framed: the limits R244 puts on a configuration, and room in a
frame for the longest response the read quantities allow (43_framing.md R214). -/
def Cfg.answersFit (c : Cfg) : Bool :=
  c.legal && decide (5 ≤ c.maxPdu) && decide (2 + ceil8 c.qtyReadCoils.max ≤ c.maxPdu)
    && decide (2 + ceil8 c.qtyReadDiscreteInputs.max ≤ c.maxPdu)
    && decide (2 + 2 * c.qtyReadHoldingRegisters.max ≤ c.maxPdu)
    && decide (2 + 2 * c.qtyReadInputRegisters.max ≤ c.maxPdu)

/-- The request can be sent: it is well formed, and its PDU fits the framing of the configuration
(45_master.md R272; 43_framing.md R214, R222, R232). -/
abbrev Request.sendable (m : Request) (c : Cfg) : Prop :=
  m.wf = true ∧ (encodeRequest m).length ≤ c.maxPdu ∧ (c.framing = .mbap → c.mbapPresent = true)

/-- The frame a request is sent in, under a configuration (45_master.md R272). -/
def Request.frame (m : Request) (c : Cfg) (tid : Word) (unit : Byte) : List Byte :=
  match c.framing with
  | .rtu => Machine.rtuFrame unit (encodeRequest m)
  | .ascii => Machine.ascFrame unit (encodeRequest m)
  | .mbap => Machine.mbapFrame tid unit (encodeRequest m)

end Sys2Proof

namespace Sys2Proof.Machine

/-- The invariant of the machine between two operations. -/
structure State.Inv (s : State) : Prop where
  /-- every bank has its sentinel, which is zero (10_state.md R22, R23) -/
  mem : s.mem.wf
  /-- no operation is in progress (10_state.md R32) -/
  notBusy : s.dsBusy = false
  /-- the observer sets are in canonical form (10_state.md R29; log entry 10) -/
  obsR : s.obsR.Pairwise (· < ·)
  obsW : s.obsW.Pairwise (· < ·)
  /-- every event carries data of its bank's kind (10_state.md R31) -/
  evtR : ∀ e ∈ s.evtR, e.wf = true
  evtW : ∀ e ∈ s.evtW, e.wf = true
  /-- the Master is idle with no request outstanding (45_master.md R270, R271; log entries 12, 17) -/
  idle : s.mstate = .idle
  noReq : s.req = none
  /-- before its creation the block is as it was given its CFG, but for what the environment presents and the result of
  the last operation (70_reset_and_hazards.md R330, R334; log entries 8, 28) -/
  fresh : s.created = false →
    s = { State.beforeCreation s.cfg with pending := s.pending, masterRx := s.masterRx, rsp := s.rsp }

/-- What no operation on a created store undoes: CFG is fixed, the store lives on, banks only grow, and the output
streams are only appended to (10_state.md R23, R24, R28, R30). -/
structure State.Extends (s s' : State) : Prop where
  cfg : s'.cfg = s.cfg
  created : s'.created = true
  len : ∀ b, s.mem.len b ≤ s'.mem.len b
  evtR : s.evtR <+: s'.evtR
  evtW : s.evtW <+: s'.evtW
  slaveTx : s.slaveTx <+: s'.slaveTx
  masterTx : s.masterTx <+: s'.masterTx

end Sys2Proof.Machine
end

