-- ==== Sys2Proof/Certificates/Slice0/Obligations.lean ====
section
/-! DEFINITION. The statements for the provers. Each docstring names the rules of spec/ a statement formalises, and the
log entry of any choice of the model it rests on. -/

open Sys2Proof Sys2Proof.Machine

/-! ## Encodings -/

/-- R86, R103: the decoder reads back every well-formed instruction from what the encoder presents for it, with every
operand at every value. Log entries 1, 3, 24 say what is presented. -/
def Obligations.DecodeOfEncode : Prop :=
  ∀ i : Instr, i.wf = true → decode (encode i) = .ok i

/-- R169: a request survives encoding, and a decoded PDU is the encoding of its message but for the padding bits of
0x0F. -/
def Obligations.RequestCodecRoundTrip : Prop :=
  (∀ m : Request, m.wf = true → decodeRequest (encodeRequest m) = .ok m) ∧
  (∀ (pdu : List Byte) (m : Request), decodeRequest pdu = .ok m →
    m.wf = true ∧ (encodeRequest m).length = pdu.length ∧
    ((∀ start values, m ≠ .writeMultipleCoils start values) → encodeRequest m = pdu) ∧
    (∀ start values, m = .writeMultipleCoils start values → ∀ j i, i < 8 →
      ((encodeRequest m).getD j 0).getLsbD i = (pdu.getD j 0).getLsbD i ∨
      (6 ≤ j ∧ values.length ≤ 8 * (j - 6) + i)))

/-- R201: a response survives encoding, given the quantity of its request where it is a read response; without it a
bit response comes back padded to whole bytes. -/
def Obligations.ResponseCodecRoundTrip : Prop :=
  ∀ m : Response, m.wf = true →
    (∀ bits, m = .readCoils bits →
      decodeResponse (encodeResponse m) ⟨.readCoils, some bits.length⟩ = .ok m ∧
      decodeResponse (encodeResponse m) ⟨.readCoils, none⟩
        = .ok (.readCoils (bits ++ List.replicate (8 * ceil8 bits.length - bits.length) false))) ∧
    (∀ bits, m = .readDiscreteInputs bits →
      decodeResponse (encodeResponse m) ⟨.readDiscreteInputs, some bits.length⟩ = .ok m ∧
      decodeResponse (encodeResponse m) ⟨.readDiscreteInputs, none⟩
        = .ok (.readDiscreteInputs (bits ++ List.replicate (8 * ceil8 bits.length - bits.length) false))) ∧
    (∀ values, m = .readHoldingRegisters values → ∀ eq, eq = none ∨ eq = some values.length →
      decodeResponse (encodeResponse m) ⟨.readHoldingRegisters, eq⟩ = .ok m) ∧
    (∀ values, m = .readInputRegisters values → ∀ eq, eq = none ∨ eq = some values.length →
      decodeResponse (encodeResponse m) ⟨.readInputRegisters, eq⟩ = .ok m) ∧
    ((∀ l, m ≠ .readCoils l) → (∀ l, m ≠ .readDiscreteInputs l) → (∀ l, m ≠ .readHoldingRegisters l) →
      (∀ l, m ≠ .readInputRegisters l) → ∀ eq, decodeResponse (encodeResponse m) ⟨m.funcCode, eq⟩ = .ok m)

/-- A sanity statement: bytes written out from the formats R87 to R97 and the codes of R103 decode to the instruction
they stand for. R97 and R103 say less than its clauses: that a response is decoded together with its caller's expectation
(the two response clauses) is log entry 24, that a command's operands are structured values (the two commands with a
meaning) is log entry 3, and that a code outside R103 is rejected as unknown (the last clause) is log entry 22, all three
the model's choices. -/
def Obligations.WrittenOutWordsDecode : Prop :=
  decode (.request [0x03, 0x00, 0x6B, 0x00, 0x03]) = .ok (.reqReadHoldingRegisters 0x006B 3) ∧
  decode (.request [0x05, 0x00, 0xAC, 0xFF, 0x00]) = .ok (.reqWriteSingleCoil 172 true) ∧
  decode (.request [0x0F, 0x00, 0x13, 0x00, 0x0A, 0x02, 0xCD, 0x01])
    = .ok (.reqWriteMultipleCoils 19 [true, false, true, true, false, false, true, true, true, false]) ∧
  decode (.request [0x10, 0x00, 0x01, 0x00, 0x02, 0x04, 0x00, 0x0A, 0x01, 0x02])
    = .ok (.reqWriteMultipleRegisters 1 [10, 258]) ∧
  decode (.request [0x2B, 0x0E, 0x01, 0x00]) = .ok (.reqUnsupported 0x2B) ∧
  decode (.response [0x03, 0x06, 0x00, 0x01, 0x00, 0x02, 0x00, 0x03] ⟨.readHoldingRegisters, some 3⟩)
    = .ok (.rspReadHoldingRegisters ⟨.readHoldingRegisters, some 3⟩ [1, 2, 3]) ∧
  decode (.response [0x81, 0x02] ⟨.readCoils, some 2⟩) = .ok (.rspException 0x01 0x02) ∧
  decode (.command 0x00 [.bytes [0x02]]) = .ok (.crc16 [0x02]) ∧
  decode (.command 0x32 []) = .ok .dsCreate ∧
  decode (.command 0x17 []) = .error (.unknownCommand 0x17)

/-- R60: where `pack_bits` puts every element and what the unused bits are, and what `unpack_bits` reads. -/
def Obligations.BitsArePackedLowestFirst : Prop :=
  (∀ bits : List Bool, (packBits bits).length = (bits.length + 7) / 8 ∧
    ∀ j i, i < 8 → ((packBits bits).getD j 0).getLsbD i
      = if 8 * j + i < bits.length then bits.getD (8 * j + i) false else false) ∧
  (∀ (bytes : List Byte) (q : Nat), (unpackBits bytes q).length = q ∧
    ∀ k, k < q → (unpackBits bytes q)[k]? = some ((bytes.getD (k / 8) 0).getLsbD (k % 8)))

/-! ## The framer -/

/-- R210: the recurrence of the CRC register, its start value, and the corner cases, the residue among them. -/
def Obligations.CRC16_Result : Prop :=
  (∀ bytes s, exec (.crc16 bytes) s = .next { s with rsp := some (.ok (.word (crc16 bytes))) }) ∧
  crc16 [] = 0xFFFF ∧
  (∀ bytes b, crc16 (bytes ++ [b])
    = Nat.iterate (fun c : Word => if c.getLsbD 0 then (c >>> 1) ^^^ 0xA001 else c >>> 1) 8
        (crc16 bytes ^^^ b.setWidth 16)) ∧
  crc16 [0x00] = 0x40BF ∧ crc16 [0x02, 0x01, 0x00, 0x00, 0x00, 0x02] = 0xF8BD ∧
  (∀ bytes, crc16 (bytes ++ le16 (crc16 bytes)) = 0)

/-- R211: the LRC is `(256 - sum mod 256) mod 256`, and the sum with it is zero modulo 256. -/
def Obligations.LRC_Result : Prop :=
  ∀ (bytes : List Byte) (s : State),
    exec (.lrc bytes) s = .next { s with rsp := some (.ok (.byte
      (BitVec.ofNat 8 ((256 - (bytes.map BitVec.toNat).sum % 256) % 256)))) } ∧
    ((bytes.map BitVec.toNat).sum + (lrc bytes).toNat) % 256 = 0

/-- R212, R213: testing the whole message for a zero residue accepts exactly the messages whose error check matches:
no other two bytes than the CRC, low byte first, and no other byte than the LRC, give zero. -/
def Obligations.ErrorCheckResidues : Prop :=
  (∀ (m : List Byte) (lo hi : Byte), crc16 (m ++ [lo, hi]) = 0 ↔ crc16 m = u16be hi lo) ∧
  (∀ (m : List Byte) (x : Byte), ((m.map BitVec.toNat).sum + x.toNat) % 256 = 0 ↔ lrc m = x)

/-- R214: the RTU frame, and its refusal outside the length range. -/
def Obligations.RTU_FRAME_Result : Prop :=
  ∀ (unit : Byte) (pdu : List Byte) (s : State),
    (1 ≤ pdu.length → pdu.length ≤ s.cfg.maxPdu →
      exec (.rtuFrame unit pdu) s = .next { s with rsp := some (.ok (.bytes
        (unit :: pdu ++ [(crc16 (unit :: pdu)).extractLsb' 0 8, (crc16 (unit :: pdu)).extractLsb' 8 8]))) }) ∧
    (pdu.length = 0 ∨ s.cfg.maxPdu < pdu.length → exec (.rtuFrame unit pdu) s = .refused .pduLength)

/-- R216: every case of `RTU.UNFRAME`. A wire of four bytes or more is a unit id, a PDU and two CRC bytes. -/
def Obligations.RTU_UNFRAME_Result : Prop :=
  ∀ s : State,
    (∀ wire, wire.length < 4 →
      exec (.rtuUnframe wire) s = .next { s with rsp := some (.error (.ioError .length)) }) ∧
    (∀ (unit lo hi : Byte) (pdu : List Byte), 1 ≤ pdu.length →
      (s.cfg.maxPdu < pdu.length →
        exec (.rtuUnframe (unit :: pdu ++ [lo, hi])) s
          = .next { s with rsp := some (.error (.ioError .length)) }) ∧
      (pdu.length ≤ s.cfg.maxPdu → (crc16 (unit :: pdu)).toNat ≠ lo.toNat + 256 * hi.toNat →
        exec (.rtuUnframe (unit :: pdu ++ [lo, hi])) s
          = .next { s with rsp := some (.error (.ioError .checksum)) }) ∧
      (pdu.length ≤ s.cfg.maxPdu → (crc16 (unit :: pdu)).toNat = lo.toNat + 256 * hi.toNat →
        exec (.rtuUnframe (unit :: pdu ++ [lo, hi])) s
          = .next { s with rsp := some (.ok (.unframed unit pdu)) }))

/-- R217: the response path's exception check, and that it agrees with the exception branch of the response decoder.
That the operand is not empty is log entry 20. -/
def Obligations.RSP_CHECK_EXC_Result : Prop :=
  ∀ (fc : Byte) (rest : List Byte) (s : State),
    (fc.getLsbD 7 = false →
      exec (.rspCheckExc (fc :: rest)) s = .next { s with rsp := some (.ok (.bytes (fc :: rest))) }) ∧
    (fc.getLsbD 7 = true → rest = [] →
      exec (.rspCheckExc (fc :: rest)) s = .next { s with rsp := some (.error (.formatError .length)) }) ∧
    (∀ code more, fc.getLsbD 7 = true → rest = code :: more →
      exec (.rspCheckExc (fc :: rest)) s
        = .next { s with rsp := some (.error (.slaveException (fc &&& 0x7F) code)) }) ∧
    (∀ e, fc.getLsbD 7 = true → exec (.rspCheckExc (fc :: rest)) s = exec (.pduDecRsp (fc :: rest) e) s)

/-- R101, R220, R221: the hex alphabet, the encoding, when decoding fails and what it gives otherwise. -/
def Obligations.HexCodec : Prop :=
  (∀ d : Byte, d.toNat ≤ 9 → (hexChar d).toNat = 0x30 + d.toNat) ∧
  (∀ d : Byte, 10 ≤ d.toNat → d.toNat ≤ 15 → (hexChar d).toNat = 0x41 + (d.toNat - 10)) ∧
  (∀ (lower : Bool) (c v : Byte), hexVal lower c = some v ↔
    v.toNat ≤ 15 ∧ (c = hexChar v ∨ (lower = true ∧ 10 ≤ v.toNat ∧ c.toNat = 0x61 + (v.toNat - 10)))) ∧
  (∀ bytes : List Byte, (hexEncode bytes).length = 2 * bytes.length ∧
    ∀ k, k < bytes.length →
      (hexEncode bytes)[2 * k]? = some (hexChar (BitVec.ofNat 8 ((bytes.getD k 0).toNat / 16))) ∧
      (hexEncode bytes)[2 * k + 1]? = some (hexChar (BitVec.ofNat 8 ((bytes.getD k 0).toNat % 16)))) ∧
  (∀ (lower : Bool) (chars : List Byte), hexDecode lower chars = none ↔
    chars.length % 2 = 1 ∨ ∃ c ∈ chars, hexVal lower c = none) ∧
  (∀ (lower : Bool) (chars bytes : List Byte), hexDecode lower chars = some bytes →
    2 * bytes.length = chars.length ∧
    ∀ k, k < bytes.length → ∃ h l, hexVal lower (chars.getD (2 * k) 0) = some h ∧
      hexVal lower (chars.getD (2 * k + 1) 0) = some l ∧ (bytes.getD k 0).toNat = 16 * h.toNat + l.toNat)

/-- R222: the ASCII frame, and its refusal outside the length range. -/
def Obligations.ASC_FRAME_Result : Prop :=
  ∀ (unit : Byte) (pdu : List Byte) (s : State),
    (1 ≤ pdu.length → pdu.length ≤ s.cfg.maxPdu →
      exec (.ascFrame unit pdu) s = .next { s with rsp := some (.ok (.bytes
        ([0x3A] ++ hexEncode (unit :: pdu ++ [lrc (unit :: pdu)]) ++ [0x0D, 0x0A]))) } ∧
      ([0x3A] ++ hexEncode (unit :: pdu ++ [lrc (unit :: pdu)]) ++ [0x0D, 0x0A] : List Byte).length
        = 2 * pdu.length + 7) ∧
    (pdu.length = 0 ∨ s.cfg.maxPdu < pdu.length → exec (.ascFrame unit pdu) s = .refused .pduLength)

/-- R224: every case of `ASC.UNFRAME`, in the order of its tests. -/
def Obligations.ASC_UNFRAME_Result : Prop :=
  ∀ s : State,
    (∀ wire, wire.length < 9 →
      exec (.ascUnframe wire) s = .next { s with rsp := some (.error (.ioError .format)) }) ∧
    (∀ wire, 9 ≤ wire.length →
      wire.head? ≠ some 0x3A ∨ wire.drop (wire.length - 2) ≠ [0x0D, 0x0A] →
      exec (.ascUnframe wire) s = .next { s with rsp := some (.error (.ioError .format)) }) ∧
    (∀ chars, 6 ≤ chars.length → hexDecode s.cfg.hexAcceptLower chars = none →
      exec (.ascUnframe ([0x3A] ++ chars ++ [0x0D, 0x0A])) s
        = .next { s with rsp := some (.error (.ioError .hex)) }) ∧
    (∀ (chars pdu : List Byte) (unit x : Byte), 1 ≤ pdu.length →
      hexDecode s.cfg.hexAcceptLower chars = some (unit :: pdu ++ [x]) →
      (s.cfg.maxPdu < pdu.length →
        exec (.ascUnframe ([0x3A] ++ chars ++ [0x0D, 0x0A])) s
          = .next { s with rsp := some (.error (.ioError .length)) }) ∧
      (pdu.length ≤ s.cfg.maxPdu → lrc (unit :: pdu) ≠ x →
        exec (.ascUnframe ([0x3A] ++ chars ++ [0x0D, 0x0A])) s
          = .next { s with rsp := some (.error (.ioError .checksum)) }) ∧
      (pdu.length ≤ s.cfg.maxPdu → lrc (unit :: pdu) = x →
        exec (.ascUnframe ([0x3A] ++ chars ++ [0x0D, 0x0A])) s
          = .next { s with rsp := some (.ok (.unframed unit pdu)) }))

/-- R232: the MBAP frame, where the unit is present; the refusals where it is absent or the PDU does not fit. -/
def Obligations.MBAP_FRAME_Result : Prop :=
  ∀ (tid : Word) (unit : Byte) (pdu : List Byte) (s : State),
    (s.cfg.mbapPresent = true → 1 ≤ pdu.length → pdu.length ≤ s.cfg.maxPdu →
      exec (.mbapFrame tid unit pdu) s = .next { s with rsp := some (.ok (.bytes
        (be16 tid ++ [0x00, 0x00] ++ be16 (BitVec.ofNat 16 (pdu.length + 1)) ++ [unit] ++ pdu))) } ∧
      (be16 tid ++ [0x00, 0x00] ++ be16 (BitVec.ofNat 16 (pdu.length + 1)) ++ [unit] ++ pdu).length
        = pdu.length + 7) ∧
    (s.cfg.mbapPresent = true → pdu.length = 0 ∨ s.cfg.maxPdu < pdu.length →
      exec (.mbapFrame tid unit pdu) s = .refused .pduLength) ∧
    (s.cfg.mbapPresent = false → exec (.mbapFrame tid unit pdu) s = .refused .mbapAbsent)

/-- R233: every case of `MBAP.UNFRAME`, in the order of its tests, where the unit is present. -/
def Obligations.MBAP_UNFRAME_Result : Prop :=
  ∀ s : State, s.cfg.mbapPresent = true →
    (∀ wire, wire.length < 8 →
      exec (.mbapUnframe wire) s = .next { s with rsp := some (.error (.formatError .length)) }) ∧
    (∀ (t1 t0 p1 p0 l1 l0 unit : Byte) (pdu : List Byte), 1 ≤ pdu.length →
      (u16be p1 p0 ≠ 0 →
        exec (.mbapUnframe ([t1, t0, p1, p0, l1, l0, unit] ++ pdu)) s
          = .next { s with rsp := some (.error (.formatError .protocol)) }) ∧
      (u16be p1 p0 = 0 → (u16be l1 l0).toNat ≠ pdu.length + 7 - 6 →
        exec (.mbapUnframe ([t1, t0, p1, p0, l1, l0, unit] ++ pdu)) s
          = .next { s with rsp := some (.error (.formatError .length)) }) ∧
      (u16be p1 p0 = 0 → (u16be l1 l0).toNat = pdu.length + 7 - 6 →
        exec (.mbapUnframe ([t1, t0, p1, p0, l1, l0, unit] ++ pdu)) s
          = .next { s with rsp := some (.ok (.mbapUnframed (u16be t1 t0) unit pdu)) }))

/-- R225: what a framer sends, its unframer takes apart again, in the three framings. -/
def Obligations.FrameRoundTrip : Prop :=
  ∀ (unit : Byte) (pdu : List Byte) (s : State), 1 ≤ pdu.length → pdu.length ≤ s.cfg.maxPdu →
    (∃ wire, exec (.ascFrame unit pdu) s = .next { s with rsp := some (.ok (.bytes wire)) } ∧
      exec (.ascUnframe wire) s = .next { s with rsp := some (.ok (.unframed unit pdu)) }) ∧
    (∃ wire, exec (.rtuFrame unit pdu) s = .next { s with rsp := some (.ok (.bytes wire)) } ∧
      exec (.rtuUnframe wire) s = .next { s with rsp := some (.ok (.unframed unit pdu)) }) ∧
    (∀ tid, s.cfg.mbapPresent = true → pdu.length ≤ 65534 →
      ∃ wire, exec (.mbapFrame tid unit pdu) s = .next { s with rsp := some (.ok (.bytes wire)) } ∧
        exec (.mbapUnframe wire) s = .next { s with rsp := some (.ok (.mbapUnframed tid unit pdu)) })

/-- R226: no frame with one byte changed is taken: RTU always, ASCII where lowercase digits are not accepted. The RTU
part is the spec's "general knowledge". -/
def Obligations.OneCorruptedByteIsDetected : Prop :=
  ∀ (unit : Byte) (pdu : List Byte) (s : State) (k : Nat) (b : Byte),
    1 ≤ pdu.length → pdu.length ≤ s.cfg.maxPdu →
    (k < (rtuFrame unit pdu).length → (rtuFrame unit pdu)[k]? ≠ some b →
      exec (.rtuUnframe ((rtuFrame unit pdu).set k b)) s
        = .next { s with rsp := some (.error (.ioError .checksum)) }) ∧
    (s.cfg.hexAcceptLower = false → k < (ascFrame unit pdu).length → (ascFrame unit pdu)[k]? ≠ some b →
      ∃ r, exec (.ascUnframe ((ascFrame unit pdu).set k b)) s
        = .next { s with rsp := some (.error (.ioError r)) })

/-! ## The PDU codec -/

/-- R151 and the eight encode rules: the bytes of every request, and the refusal of a message that is not well
formed. -/
def Obligations.PDU_ENC_REQ_Result : Prop :=
  ∀ s : State,
    (∀ start q, exec (.pduEncReq (.readCoils start q)) s
      = .next { s with rsp := some (.ok (.bytes ([0x01] ++ be16 start ++ be16 q))) }) ∧
    (∀ start q, exec (.pduEncReq (.readDiscreteInputs start q)) s
      = .next { s with rsp := some (.ok (.bytes ([0x02] ++ be16 start ++ be16 q))) }) ∧
    (∀ start q, exec (.pduEncReq (.readHoldingRegisters start q)) s
      = .next { s with rsp := some (.ok (.bytes ([0x03] ++ be16 start ++ be16 q))) }) ∧
    (∀ start q, exec (.pduEncReq (.readInputRegisters start q)) s
      = .next { s with rsp := some (.ok (.bytes ([0x04] ++ be16 start ++ be16 q))) }) ∧
    (∀ a v, exec (.pduEncReq (.writeSingleCoil a v)) s
      = .next { s with rsp := some (.ok (.bytes ([0x05] ++ be16 a ++ if v then [0xFF, 0x00] else [0x00, 0x00]))) }) ∧
    (∀ a v, exec (.pduEncReq (.writeSingleRegister a v)) s
      = .next { s with rsp := some (.ok (.bytes ([0x06] ++ be16 a ++ be16 v))) }) ∧
    (∀ start values, values.length ≤ 2040 → exec (.pduEncReq (.writeMultipleCoils start values)) s
      = .next { s with rsp := some (.ok (.bytes ([0x0F] ++ be16 start ++ be16 (BitVec.ofNat 16 values.length)
          ++ [BitVec.ofNat 8 (ceil8 values.length)] ++ packBits values))) }) ∧
    (∀ start values, values.length ≤ 127 → exec (.pduEncReq (.writeMultipleRegisters start values)) s
      = .next { s with rsp := some (.ok (.bytes ([0x10] ++ be16 start ++ be16 (BitVec.ofNat 16 values.length)
          ++ [BitVec.ofNat 8 (2 * values.length)] ++ values.flatMap be16))) }) ∧
    (∀ start values, 2040 < values.length →
      exec (.pduEncReq (.writeMultipleCoils start values)) s = .refused .messageTooLong) ∧
    (∀ start values, 127 < values.length →
      exec (.pduEncReq (.writeMultipleRegisters start values)) s = .refused .messageTooLong)

/-- R152 and the eight decode rules: what every byte sequence decodes to, or the first reason it does not. -/
def Obligations.PDU_DEC_REQ_Result : Prop :=
  ∀ s : State,
    exec (.pduDecReq []) s = .next { s with rsp := some (.error (.formatError .empty)) } ∧
    (∀ fc rest, fc ∉ ([0x01, 0x02, 0x03, 0x04, 0x05, 0x06, 0x0F, 0x10] : List Byte) →
      exec (.pduDecReq (fc :: rest)) s = .next { s with rsp := some (.error (.formatError (.function fc))) }) ∧
    (∀ fc rest, fc ∈ ([0x01, 0x02, 0x03, 0x04, 0x05, 0x06] : List Byte) → rest.length ≠ 4 →
      exec (.pduDecReq (fc :: rest)) s = .next { s with rsp := some (.error (.formatError .length)) }) ∧
    (∀ a b c d, exec (.pduDecReq [0x01, a, b, c, d]) s
      = .next { s with rsp := some (.ok (.request (.readCoils (u16be a b) (u16be c d)))) }) ∧
    (∀ a b c d, exec (.pduDecReq [0x02, a, b, c, d]) s
      = .next { s with rsp := some (.ok (.request (.readDiscreteInputs (u16be a b) (u16be c d)))) }) ∧
    (∀ a b c d, exec (.pduDecReq [0x03, a, b, c, d]) s
      = .next { s with rsp := some (.ok (.request (.readHoldingRegisters (u16be a b) (u16be c d)))) }) ∧
    (∀ a b c d, exec (.pduDecReq [0x04, a, b, c, d]) s
      = .next { s with rsp := some (.ok (.request (.readInputRegisters (u16be a b) (u16be c d)))) }) ∧
    (∀ a b, exec (.pduDecReq [0x05, a, b, 0xFF, 0x00]) s
      = .next { s with rsp := some (.ok (.request (.writeSingleCoil (u16be a b) true))) }) ∧
    (∀ a b, exec (.pduDecReq [0x05, a, b, 0x00, 0x00]) s
      = .next { s with rsp := some (.ok (.request (.writeSingleCoil (u16be a b) false))) }) ∧
    (∀ a b c d, u16be c d ≠ 0xFF00 → u16be c d ≠ 0x0000 → exec (.pduDecReq [0x05, a, b, c, d]) s
      = .next { s with rsp := some (.error (.formatError (.coilValue (u16be c d)))) }) ∧
    (∀ a b c d, exec (.pduDecReq [0x06, a, b, c, d]) s
      = .next { s with rsp := some (.ok (.request (.writeSingleRegister (u16be a b) (u16be c d)))) }) ∧
    (∀ fc rest, fc = 0x0F ∨ fc = 0x10 → rest.length < 5 →
      exec (.pduDecReq (fc :: rest)) s = .next { s with rsp := some (.error (.formatError .length)) }) ∧
    (∀ (a b c d n : Byte) (data : List Byte),
      (n.toNat ≠ ceil8 (u16be c d).toNat → exec (.pduDecReq (0x0F :: a :: b :: c :: d :: n :: data)) s
        = .next { s with rsp := some (.error (.formatError .byteCount)) }) ∧
      (n.toNat = ceil8 (u16be c d).toNat → data.length ≠ n.toNat →
        exec (.pduDecReq (0x0F :: a :: b :: c :: d :: n :: data)) s
          = .next { s with rsp := some (.error (.formatError .length)) }) ∧
      (n.toNat = ceil8 (u16be c d).toNat → data.length = n.toNat →
        exec (.pduDecReq (0x0F :: a :: b :: c :: d :: n :: data)) s
          = .next { s with rsp := some (.ok (.request
              (.writeMultipleCoils (u16be a b) (unpackBits data (u16be c d).toNat)))) }) ∧
      (n.toNat ≠ 2 * (u16be c d).toNat → exec (.pduDecReq (0x10 :: a :: b :: c :: d :: n :: data)) s
        = .next { s with rsp := some (.error (.formatError .byteCount)) }) ∧
      (n.toNat = 2 * (u16be c d).toNat → data.length ≠ n.toNat →
        exec (.pduDecReq (0x10 :: a :: b :: c :: d :: n :: data)) s
          = .next { s with rsp := some (.error (.formatError .length)) }) ∧
      (n.toNat = 2 * (u16be c d).toNat → data.length = n.toNat →
        ∃ values : List Word, exec (.pduDecReq (0x10 :: a :: b :: c :: d :: n :: data)) s
            = .next { s with rsp := some (.ok (.request (.writeMultipleRegisters (u16be a b) values))) } ∧
          values.length = (u16be c d).toNat ∧
          ∀ k, k < values.length → values[k]? = some (u16be (data.getD (2 * k) 0) (data.getD (2 * k + 1) 0))))

/-- R181 and the eight encode rules: the bytes of every response, and the refusal of a message that is not well
formed. -/
def Obligations.PDU_ENC_RSP_Result : Prop :=
  ∀ s : State,
    (∀ bits, bits.length ≤ 2040 → exec (.pduEncRsp (.readCoils bits)) s
      = .next { s with rsp := some (.ok (.bytes ([0x01, BitVec.ofNat 8 (ceil8 bits.length)] ++ packBits bits))) }) ∧
    (∀ bits, bits.length ≤ 2040 → exec (.pduEncRsp (.readDiscreteInputs bits)) s
      = .next { s with rsp := some (.ok (.bytes ([0x02, BitVec.ofNat 8 (ceil8 bits.length)] ++ packBits bits))) }) ∧
    (∀ values, values.length ≤ 127 → exec (.pduEncRsp (.readHoldingRegisters values)) s
      = .next { s with rsp := some (.ok (.bytes
          ([0x03, BitVec.ofNat 8 (2 * values.length)] ++ values.flatMap be16))) }) ∧
    (∀ values, values.length ≤ 127 → exec (.pduEncRsp (.readInputRegisters values)) s
      = .next { s with rsp := some (.ok (.bytes
          ([0x04, BitVec.ofNat 8 (2 * values.length)] ++ values.flatMap be16))) }) ∧
    (∀ a v, exec (.pduEncRsp (.writeSingleCoil a v)) s
      = .next { s with rsp := some (.ok (.bytes ([0x05] ++ be16 a ++ if v then [0xFF, 0x00] else [0x00, 0x00]))) }) ∧
    (∀ a v, exec (.pduEncRsp (.writeSingleRegister a v)) s
      = .next { s with rsp := some (.ok (.bytes ([0x06] ++ be16 a ++ be16 v))) }) ∧
    (∀ start q, exec (.pduEncRsp (.writeMultipleCoils start q)) s
      = .next { s with rsp := some (.ok (.bytes ([0x0F] ++ be16 start ++ be16 q))) }) ∧
    (∀ start q, exec (.pduEncRsp (.writeMultipleRegisters start q)) s
      = .next { s with rsp := some (.ok (.bytes ([0x10] ++ be16 start ++ be16 q))) }) ∧
    (∀ bits, 2040 < bits.length → exec (.pduEncRsp (.readCoils bits)) s = .refused .messageTooLong ∧
      exec (.pduEncRsp (.readDiscreteInputs bits)) s = .refused .messageTooLong) ∧
    (∀ values, 127 < values.length → exec (.pduEncRsp (.readHoldingRegisters values)) s = .refused .messageTooLong ∧
      exec (.pduEncRsp (.readInputRegisters values)) s = .refused .messageTooLong)

/-- R182, R184 and R186: the response decoder up to the function code, and the two bit responses. -/
def Obligations.PDU_DEC_RSP_Bits : Prop :=
  ∀ s : State,
    (∀ e, exec (.pduDecRsp [] e) s = .next { s with rsp := some (.error (.formatError .empty)) }) ∧
    (∀ fc e, fc.getLsbD 7 = true →
      exec (.pduDecRsp [fc] e) s = .next { s with rsp := some (.error (.formatError .length)) }) ∧
    (∀ fc code rest e, fc.getLsbD 7 = true → exec (.pduDecRsp (fc :: code :: rest) e) s
      = .next { s with rsp := some (.error (.slaveException (fc &&& 0x7F) code)) }) ∧
    (∀ fc rest e, fc.getLsbD 7 = false → fc ≠ e.fc.toByte → exec (.pduDecRsp (fc :: rest) e) s
      = .next { s with rsp := some (.error (.formatError (.function fc))) }) ∧
    (∀ f eq, f = FuncCode.readCoils ∨ f = FuncCode.readDiscreteInputs →
      exec (.pduDecRsp [f.toByte] ⟨f, eq⟩) s = .next { s with rsp := some (.error (.formatError .length)) } ∧
      ∀ (n : Byte) (data : List Byte),
        (data.length ≠ n.toNat → exec (.pduDecRsp (f.toByte :: n :: data) ⟨f, eq⟩) s
          = .next { s with rsp := some (.error (.formatError .length)) }) ∧
        (∀ q, data.length = n.toNat → eq = some q → n.toNat ≠ ceil8 q →
          exec (.pduDecRsp (f.toByte :: n :: data) ⟨f, eq⟩) s
            = .next { s with rsp := some (.error (.formatError .byteCount)) }) ∧
        (∀ q, data.length = n.toNat → (eq = none ∧ q = 8 * n.toNat) ∨ (eq = some q ∧ n.toNat = ceil8 q) →
          (f = .readCoils → exec (.pduDecRsp (f.toByte :: n :: data) ⟨f, eq⟩) s
            = .next { s with rsp := some (.ok (.response (.readCoils (unpackBits data q)))) }) ∧
          (f = .readDiscreteInputs → exec (.pduDecRsp (f.toByte :: n :: data) ⟨f, eq⟩) s
            = .next { s with rsp := some (.ok (.response (.readDiscreteInputs (unpackBits data q)))) })))

/-- R188, R190, R192, R194, R196 and R198: the register responses and the four write responses, with the function code
that is expected. -/
def Obligations.PDU_DEC_RSP_RegistersAndEchoes : Prop :=
  ∀ s : State,
    (∀ f eq, f = FuncCode.readHoldingRegisters ∨ f = FuncCode.readInputRegisters →
      exec (.pduDecRsp [f.toByte] ⟨f, eq⟩) s = .next { s with rsp := some (.error (.formatError .length)) } ∧
      ∀ (n : Byte) (data : List Byte),
        (data.length ≠ n.toNat → exec (.pduDecRsp (f.toByte :: n :: data) ⟨f, eq⟩) s
          = .next { s with rsp := some (.error (.formatError .length)) }) ∧
        (data.length = n.toNat → n.toNat % 2 = 1 ∨ (∃ q, eq = some q ∧ n.toNat ≠ 2 * q) →
          exec (.pduDecRsp (f.toByte :: n :: data) ⟨f, eq⟩) s
            = .next { s with rsp := some (.error (.formatError .byteCount)) }) ∧
        (data.length = n.toNat → n.toNat % 2 = 0 → (∀ q, eq = some q → n.toNat = 2 * q) →
          ∃ values : List Word, 2 * values.length = n.toNat ∧
            (∀ k, k < values.length → values[k]? = some (u16be (data.getD (2 * k) 0) (data.getD (2 * k + 1) 0))) ∧
            (f = .readHoldingRegisters → exec (.pduDecRsp (f.toByte :: n :: data) ⟨f, eq⟩) s
              = .next { s with rsp := some (.ok (.response (.readHoldingRegisters values))) }) ∧
            (f = .readInputRegisters → exec (.pduDecRsp (f.toByte :: n :: data) ⟨f, eq⟩) s
              = .next { s with rsp := some (.ok (.response (.readInputRegisters values))) }))) ∧
    (∀ f eq rest, f = FuncCode.writeSingleCoil ∨ f = FuncCode.writeSingleRegister ∨
        f = FuncCode.writeMultipleCoils ∨ f = FuncCode.writeMultipleRegisters → rest.length ≠ 4 →
      exec (.pduDecRsp (f.toByte :: rest) ⟨f, eq⟩) s
        = .next { s with rsp := some (.error (.formatError .length)) }) ∧
    (∀ eq a b c d,
      (u16be c d = 0xFF00 → exec (.pduDecRsp [0x05, a, b, c, d] ⟨.writeSingleCoil, eq⟩) s
        = .next { s with rsp := some (.ok (.response (.writeSingleCoil (u16be a b) true))) }) ∧
      (u16be c d = 0x0000 → exec (.pduDecRsp [0x05, a, b, c, d] ⟨.writeSingleCoil, eq⟩) s
        = .next { s with rsp := some (.ok (.response (.writeSingleCoil (u16be a b) false))) }) ∧
      (u16be c d ≠ 0xFF00 → u16be c d ≠ 0x0000 → exec (.pduDecRsp [0x05, a, b, c, d] ⟨.writeSingleCoil, eq⟩) s
        = .next { s with rsp := some (.error (.formatError (.coilValue (u16be c d)))) }) ∧
      exec (.pduDecRsp [0x06, a, b, c, d] ⟨.writeSingleRegister, eq⟩) s
        = .next { s with rsp := some (.ok (.response (.writeSingleRegister (u16be a b) (u16be c d)))) } ∧
      exec (.pduDecRsp [0x0F, a, b, c, d] ⟨.writeMultipleCoils, eq⟩) s
        = .next { s with rsp := some (.ok (.response (.writeMultipleCoils (u16be a b) (u16be c d)))) } ∧
      exec (.pduDecRsp [0x10, a, b, c, d] ⟨.writeMultipleRegisters, eq⟩) s
        = .next { s with rsp := some (.ok (.response (.writeMultipleRegisters (u16be a b) (u16be c d)))) })

/-- R199: the exception PDU. -/
def Obligations.PDU_ENC_EXC_Result : Prop :=
  ∀ (fc code : Byte) (s : State),
    exec (.pduEncExc fc code) s = .next { s with rsp := some (.ok (.bytes [fc ||| 0x80, code])) } ∧
    (128 ≤ fc.toNat → fc ||| 0x80 = fc)

/-- The rows RSP.READ_*: a PDU of known layout read by a caller with an expectation, the checks R182, R184 and R188
leave. The rows' form is the model's choice (log entry 24). -/
def Obligations.ResponseReadRows : Prop :=
  (∀ (data : List Byte) (s : State), data.length ≤ 255 →
    (∀ f eq, f ≠ FuncCode.readCoils → exec (.rspReadCoils ⟨f, eq⟩ data) s
      = .next { s with rsp := some (.error (.formatError (.function 0x01))) }) ∧
    (∀ f eq, f ≠ FuncCode.readDiscreteInputs → exec (.rspReadDiscreteInputs ⟨f, eq⟩ data) s
      = .next { s with rsp := some (.error (.formatError (.function 0x02))) }) ∧
    exec (.rspReadCoils ⟨.readCoils, none⟩ data) s
      = .next { s with rsp := some (.ok (.response (.readCoils (unpackBits data (8 * data.length))))) } ∧
    exec (.rspReadDiscreteInputs ⟨.readDiscreteInputs, none⟩ data) s
      = .next { s with rsp := some (.ok (.response (.readDiscreteInputs (unpackBits data (8 * data.length))))) } ∧
    (∀ q, data.length = ceil8 q →
      exec (.rspReadCoils ⟨.readCoils, some q⟩ data) s
        = .next { s with rsp := some (.ok (.response (.readCoils (unpackBits data q)))) } ∧
      exec (.rspReadDiscreteInputs ⟨.readDiscreteInputs, some q⟩ data) s
        = .next { s with rsp := some (.ok (.response (.readDiscreteInputs (unpackBits data q)))) }) ∧
    (∀ q, data.length ≠ ceil8 q →
      exec (.rspReadCoils ⟨.readCoils, some q⟩ data) s
        = .next { s with rsp := some (.error (.formatError .byteCount)) } ∧
      exec (.rspReadDiscreteInputs ⟨.readDiscreteInputs, some q⟩ data) s
        = .next { s with rsp := some (.error (.formatError .byteCount)) })) ∧
  (∀ (values : List Word) (s : State), values.length ≤ 127 →
    (∀ f eq, f ≠ FuncCode.readHoldingRegisters → exec (.rspReadHoldingRegisters ⟨f, eq⟩ values) s
      = .next { s with rsp := some (.error (.formatError (.function 0x03))) }) ∧
    (∀ f eq, f ≠ FuncCode.readInputRegisters → exec (.rspReadInputRegisters ⟨f, eq⟩ values) s
      = .next { s with rsp := some (.error (.formatError (.function 0x04))) }) ∧
    (∀ eq, eq = none ∨ eq = some values.length →
      exec (.rspReadHoldingRegisters ⟨.readHoldingRegisters, eq⟩ values) s
        = .next { s with rsp := some (.ok (.response (.readHoldingRegisters values))) } ∧
      exec (.rspReadInputRegisters ⟨.readInputRegisters, eq⟩ values) s
        = .next { s with rsp := some (.ok (.response (.readInputRegisters values))) }) ∧
    (∀ q, q ≠ values.length →
      exec (.rspReadHoldingRegisters ⟨.readHoldingRegisters, some q⟩ values) s
        = .next { s with rsp := some (.error (.formatError .byteCount)) } ∧
      exec (.rspReadInputRegisters ⟨.readInputRegisters, some q⟩ values) s
        = .next { s with rsp := some (.error (.formatError .byteCount)) }))

/-- The rows of the four write responses and RSP.EXCEPTION (R182, R192, R194, R196, R198; log entry 24). -/
def Obligations.ResponseWriteAndExceptionRows : Prop :=
  ∀ (s : State) (eq : Option Nat) (v w : Word) (b : Bool),
    exec (.rspWriteSingleCoil ⟨.writeSingleCoil, eq⟩ v b) s
      = .next { s with rsp := some (.ok (.response (.writeSingleCoil v b))) } ∧
    exec (.rspWriteSingleRegister ⟨.writeSingleRegister, eq⟩ v w) s
      = .next { s with rsp := some (.ok (.response (.writeSingleRegister v w))) } ∧
    exec (.rspWriteMultipleCoils ⟨.writeMultipleCoils, eq⟩ v w) s
      = .next { s with rsp := some (.ok (.response (.writeMultipleCoils v w))) } ∧
    exec (.rspWriteMultipleRegisters ⟨.writeMultipleRegisters, eq⟩ v w) s
      = .next { s with rsp := some (.ok (.response (.writeMultipleRegisters v w))) } ∧
    (∀ f, f ≠ FuncCode.writeSingleCoil → exec (.rspWriteSingleCoil ⟨f, eq⟩ v b) s
      = .next { s with rsp := some (.error (.formatError (.function 0x05))) }) ∧
    (∀ f, f ≠ FuncCode.writeSingleRegister → exec (.rspWriteSingleRegister ⟨f, eq⟩ v w) s
      = .next { s with rsp := some (.error (.formatError (.function 0x06))) }) ∧
    (∀ f, f ≠ FuncCode.writeMultipleCoils → exec (.rspWriteMultipleCoils ⟨f, eq⟩ v w) s
      = .next { s with rsp := some (.error (.formatError (.function 0x0F))) }) ∧
    (∀ f, f ≠ FuncCode.writeMultipleRegisters → exec (.rspWriteMultipleRegisters ⟨f, eq⟩ v w) s
      = .next { s with rsp := some (.error (.formatError (.function 0x10))) }) ∧
    (∀ fc code : Byte, exec (.rspException fc code) s
      = .next { s with rsp := some (.error (.slaveException (fc &&& 0x7F) code)) })

/-! ## The DataStore -/

/-- R131: `DS.READ`, in and out of range, with its event; nothing else changes. -/
def Obligations.DS_READ_Result : Prop :=
  ∀ (bank : Bank) (start count : Nat) (s : State), s.StoreReady →
    (s.mem.len bank < start + 1 ∨ s.mem.len bank < start + 1 + count →
      exec (.dsRead bank start count) s
        = .next { s with rsp := some (.error (.outOfRange bank start count)) }) ∧
    (start + 1 ≤ s.mem.len bank → start + 1 + count ≤ s.mem.len bank →
      ∃ data : Values, exec (.dsRead bank start count) s
          = .next { s with evtR := s.evtR ++ [⟨kindOf bank, start, data⟩], rsp := some (.ok (.data data)) } ∧
        data.fits bank = true ∧ data.length = count ∧
        ∀ k, k < count → data.elem? k = s.mem.elem? bank (start + 1 + k))

/-- R132: `DS.WRITE`, in and out of range, with its event: the slice holds the values, every other element of every
bank is unchanged, and no length changes. Values of the other element kind are refused. -/
def Obligations.DS_WRITE_Result : Prop :=
  ∀ (bank : Bank) (start : Nat) (values : Values) (s : State), s.StoreReady →
    (values.fits bank = false → exec (.dsWrite bank start values) s = .refused (.wrongElementKind bank)) ∧
    (values.fits bank = true → s.mem.len bank < start + 1 ∨ s.mem.len bank < start + 1 + values.length →
      exec (.dsWrite bank start values) s
        = .next { s with rsp := some (.error (.outOfRange bank start values.length)) }) ∧
    (values.fits bank = true → start + 1 ≤ s.mem.len bank → start + 1 + values.length ≤ s.mem.len bank →
      ∃ m : Memory, exec (.dsWrite bank start values) s
          = .next { s with mem := m, evtW := s.evtW ++ [⟨kindOf bank, start, values⟩], rsp := some (.ok .unit) } ∧
        (∀ c, m.len c = s.mem.len c) ∧
        (∀ k, k < values.length → m.elem? bank (start + 1 + k) = values.elem? k) ∧
        (∀ c k, ¬(c = bank ∧ start + 1 ≤ k ∧ k < start + 1 + values.length) → m.elem? c k = s.mem.elem? c k))

/-- R137 (c): in every later state in which the bank still holds what the write left, a read of the slice just written
returns the values written. -/
def Obligations.ReadAfterWrite : Prop :=
  ∀ (bank : Bank) (start : Nat) (values : Values) (s t u : State), s.StoreReady → values.fits bank = true →
    start + 1 + values.length ≤ s.mem.len bank → exec (.dsWrite bank start values) s = .next t →
    u.StoreReady → u.mem.bank bank = t.mem.bank bank →
    ∃ v, exec (.dsRead bank start values.length) u = .next v ∧ v.rsp = some (.ok (.data values))

/-- R133: `DS.CREATE` of a store that does not exist yet, and its refusal on a live store. -/
def Obligations.DS_CREATE_Result : Prop :=
  ∀ s : State,
    (s.created = false → exec .dsCreate s = .next { s with
      created := true
      mem := ⟨[false] ++ List.replicate s.cfg.slotsCD false, [false] ++ List.replicate s.cfg.slotsID false,
        [0] ++ List.replicate s.cfg.slotsHR 0, [0] ++ List.replicate s.cfg.slotsIR 0⟩
      rsp := some (.ok .unit) }) ∧
    (s.created = true → exec .dsCreate s = .refused .storeAlreadyCreated)

/-- R134: `DS.LOAD` in place of `DS.CREATE`: the caller's value for address `k` is at storage index `k + 1`, behind a
prepended sentinel; its refusal on a live store. -/
def Obligations.DS_LOAD_Result : Prop :=
  ∀ (cd id : List Bool) (hr ir : List Word) (s : State),
    (s.created = false → exec (.dsLoad cd id hr ir) s = .next { s with
      created := true
      mem := ⟨[false] ++ cd, [false] ++ id, [0] ++ hr, [0] ++ ir⟩
      rsp := some (.ok .unit) }) ∧
    (s.created = true → exec (.dsLoad cd id hr ir) s = .refused .storeAlreadyCreated)

/-- R135: `DS.GROW` appends: the bank's length grows by the number of values, no existing element of any bank moves or
changes, and there is no event and no bounds rule. -/
def Obligations.DS_GROW_Result : Prop :=
  ∀ (bank : Bank) (values : Values) (s : State), s.StoreReady → values.fits bank = true →
    ∃ m : Memory, exec (.dsGrow bank values) s = .next { s with mem := m, rsp := some (.ok .unit) } ∧
      (∀ c, m.len c = if c = bank then s.mem.len c + values.length else s.mem.len c) ∧
      (∀ c k, k < s.mem.len c → m.elem? c k = s.mem.elem? c k) ∧
      (∀ k, k < values.length → m.elem? bank (s.mem.len bank + k) = values.elem? k)

/-- R136: `OBS.SUBSCRIBE` on a store that exists adds one identity to the set of its channel. Before that it is refused
(R334; the statement StoreRefusals). -/
def Obligations.OBS_SUBSCRIBE_Result : Prop :=
  ∀ (o : Nat) (s : State), s.created = true →
    (∃ l : List Nat, exec (.obsSubscribe .readFrom o) s = .next { s with obsR := l, rsp := some (.ok .unit) } ∧
      ∀ x, x ∈ l ↔ x ∈ s.obsR ∨ x = o) ∧
    (∃ l : List Nat, exec (.obsSubscribe .writtenTo o) s = .next { s with obsW := l, rsp := some (.ok .unit) } ∧
      ∀ x, x ∈ l ↔ x ∈ s.obsW ∨ x = o)

/-- R310, R334: before the store exists its operations, the registration of observers, what comes from the wire and the
Master's request are refused; so is an operation on a store that is notifying, and a bank cannot grow by values of the
other element kind (R135). That DS_BUSY stands for re-entry and `created` for the store's existence are log entries 9 and
8; that what waits for the store is refused, and what that takes in beside R334's own list, is log entry 28. -/
def Obligations.StoreRefusals : Prop :=
  ∀ (bank : Bank) (start count : Nat) (values : Values) (s : State),
    (s.created = false →
      exec (.dsRead bank start count) s = .refused .storeNotCreated ∧
      exec (.dsWrite bank start values) s = .refused .storeNotCreated ∧
      exec (.dsGrow bank values) s = .refused .storeNotCreated ∧
      (∀ c o, exec (.obsSubscribe c o) s = .refused .storeNotCreated) ∧
      (∀ i : Instr, i.fromWire = true → i.wf = true → exec i s = .refused .storeNotCreated) ∧
      (∀ unit m, s.mstate = .idle → exec (.masterExecute unit m) s = .refused .storeNotCreated)) ∧
    (s.created = true → s.dsBusy = true →
      exec (.dsRead bank start count) s = .refused .reentrantAccess ∧
      exec (.dsWrite bank start values) s = .refused .reentrantAccess ∧
      exec (.dsGrow bank values) s = .refused .reentrantAccess) ∧
    (s.StoreReady → values.fits bank = false → exec (.dsGrow bank values) s = .refused (.wrongElementKind bank))

/-! ## Reset -/

/-- R37: the reset value of every piece of the spec's state, under any configuration, and what `DS.LOAD` in place of
`DS.CREATE` makes of it. The state before creation is log entry 8. -/
def Obligations.ResetValues : Prop :=
  ∀ c : Cfg,
    (State.resetWith c).mem.cd = [false] ++ List.replicate c.slotsCD false ∧
    (State.resetWith c).mem.id = [false] ++ List.replicate c.slotsID false ∧
    (State.resetWith c).mem.hr = [0] ++ List.replicate c.slotsHR 0 ∧
    (State.resetWith c).mem.ir = [0] ++ List.replicate c.slotsIR 0 ∧
    (State.resetWith c).mem.len .cd = c.slotsCD + 1 ∧ (State.resetWith c).mem.len .id = c.slotsID + 1 ∧
    (State.resetWith c).mem.len .hr = c.slotsHR + 1 ∧ (State.resetWith c).mem.len .ir = c.slotsIR + 1 ∧
    (State.resetWith c).obsR = [] ∧ (State.resetWith c).obsW = [] ∧
    (State.resetWith c).evtR = [] ∧ (State.resetWith c).evtW = [] ∧
    (State.resetWith c).dsBusy = false ∧ (State.resetWith c).mstate = .idle ∧
    (State.resetWith c).attempts = 0 ∧ (State.resetWith c).req = none ∧ (State.resetWith c).cfg = c ∧
    (∀ cd id hr ir, exec (.dsLoad cd id hr ir) (State.beforeCreation c) = .next { State.resetWith c with
      mem := ⟨[false] ++ cd, [false] ++ id, [0] ++ hr, [0] ++ ir⟩, rsp := some (.ok .unit) })

/-- R330, R331, R334: reset is the creation: `DS.CREATE` in the state before it gives the reset state, with its result,
and so it does, as does `DS.LOAD` but for the banks, in every state of the invariant in which the store does not exist:
whatever ran before the creation has left nothing else. The state before creation is log entry 8, what runs before the
creation log entry 28, and the configuration of `State.reset` log entry 6. -/
def Obligations.ResetIsCreation : Prop :=
  (∀ s : State, s.Inv → s.created = false →
    exec .dsCreate s = .next { State.resetWith s.cfg with
      pending := s.pending, masterRx := s.masterRx, rsp := some (.ok .unit) } ∧
    ∀ cd id hr ir, exec (.dsLoad cd id hr ir) s = .next { State.resetWith s.cfg with
      mem := ⟨[false] ++ cd, [false] ++ id, [0] ++ hr, [0] ++ ir⟩
      pending := s.pending, masterRx := s.masterRx, rsp := some (.ok .unit) }) ∧
  (∀ c : Cfg, exec .dsCreate (State.beforeCreation c) = .next { State.resetWith c with rsp := some (.ok .unit) }) ∧
  State.reset = State.resetWith Cfg.default

/-! ## The slave datapath -/

/-- R242, R243: ReadCoils and ReadDiscreteInputs at the slave: the quantity test, the bounds rule, and the read with its
event and its response. Up to 2040 bits have a response (R244). -/
def Obligations.SlaveReadsBits : Prop :=
  ∀ (start q : Word) (s : State), s.StoreReady →
    (q.toNat < s.cfg.qtyReadCoils.min ∨ s.cfg.qtyReadCoils.max < q.toNat →
      exec (.reqReadCoils start q) s
        = .next { s with rsp := some (.ok (.reply (some [0x81, s.cfg.excIllegalDataValue]))) }) ∧
    (s.cfg.qtyReadCoils.min ≤ q.toNat → q.toNat ≤ s.cfg.qtyReadCoils.max →
      s.mem.cd.length < start.toNat + 1 + q.toNat →
      exec (.reqReadCoils start q) s
        = .next { s with rsp := some (.ok (.reply (some [0x81, s.cfg.excIllegalDataAddress]))) }) ∧
    (s.cfg.qtyReadCoils.min ≤ q.toNat → q.toNat ≤ s.cfg.qtyReadCoils.max → q.toNat ≤ 2040 →
      start.toNat + 1 + q.toNat ≤ s.mem.cd.length →
      exec (.reqReadCoils start q) s = .next { s with
        evtR := s.evtR ++ [⟨.coil, start.toNat, .bits ((s.mem.cd.drop (start.toNat + 1)).take q.toNat)⟩]
        rsp := some (.ok (.reply (some ([0x01, BitVec.ofNat 8 (ceil8 q.toNat)]
          ++ packBits ((s.mem.cd.drop (start.toNat + 1)).take q.toNat))))) }) ∧
    (q.toNat < s.cfg.qtyReadDiscreteInputs.min ∨ s.cfg.qtyReadDiscreteInputs.max < q.toNat →
      exec (.reqReadDiscreteInputs start q) s
        = .next { s with rsp := some (.ok (.reply (some [0x82, s.cfg.excIllegalDataValue]))) }) ∧
    (s.cfg.qtyReadDiscreteInputs.min ≤ q.toNat → q.toNat ≤ s.cfg.qtyReadDiscreteInputs.max →
      s.mem.id.length < start.toNat + 1 + q.toNat →
      exec (.reqReadDiscreteInputs start q) s
        = .next { s with rsp := some (.ok (.reply (some [0x82, s.cfg.excIllegalDataAddress]))) }) ∧
    (s.cfg.qtyReadDiscreteInputs.min ≤ q.toNat → q.toNat ≤ s.cfg.qtyReadDiscreteInputs.max → q.toNat ≤ 2040 →
      start.toNat + 1 + q.toNat ≤ s.mem.id.length →
      exec (.reqReadDiscreteInputs start q) s = .next { s with
        evtR := s.evtR ++ [⟨.input, start.toNat, .bits ((s.mem.id.drop (start.toNat + 1)).take q.toNat)⟩]
        rsp := some (.ok (.reply (some ([0x02, BitVec.ofNat 8 (ceil8 q.toNat)]
          ++ packBits ((s.mem.id.drop (start.toNat + 1)).take q.toNat))))) })

/-- R244, R245: ReadHoldingRegisters and ReadInputRegisters at the slave. Up to 127 registers have a response. -/
def Obligations.SlaveReadsRegisters : Prop :=
  ∀ (start q : Word) (s : State), s.StoreReady →
    (q.toNat < s.cfg.qtyReadHoldingRegisters.min ∨ s.cfg.qtyReadHoldingRegisters.max < q.toNat →
      exec (.reqReadHoldingRegisters start q) s
        = .next { s with rsp := some (.ok (.reply (some [0x83, s.cfg.excIllegalDataValue]))) }) ∧
    (s.cfg.qtyReadHoldingRegisters.min ≤ q.toNat → q.toNat ≤ s.cfg.qtyReadHoldingRegisters.max →
      s.mem.hr.length < start.toNat + 1 + q.toNat →
      exec (.reqReadHoldingRegisters start q) s
        = .next { s with rsp := some (.ok (.reply (some [0x83, s.cfg.excIllegalDataAddress]))) }) ∧
    (s.cfg.qtyReadHoldingRegisters.min ≤ q.toNat → q.toNat ≤ s.cfg.qtyReadHoldingRegisters.max → q.toNat ≤ 127 →
      start.toNat + 1 + q.toNat ≤ s.mem.hr.length →
      exec (.reqReadHoldingRegisters start q) s = .next { s with
        evtR := s.evtR
          ++ [⟨.holdingRegister, start.toNat, .regs ((s.mem.hr.drop (start.toNat + 1)).take q.toNat)⟩]
        rsp := some (.ok (.reply (some ([0x03, BitVec.ofNat 8 (2 * q.toNat)]
          ++ ((s.mem.hr.drop (start.toNat + 1)).take q.toNat).flatMap be16)))) }) ∧
    (q.toNat < s.cfg.qtyReadInputRegisters.min ∨ s.cfg.qtyReadInputRegisters.max < q.toNat →
      exec (.reqReadInputRegisters start q) s
        = .next { s with rsp := some (.ok (.reply (some [0x84, s.cfg.excIllegalDataValue]))) }) ∧
    (s.cfg.qtyReadInputRegisters.min ≤ q.toNat → q.toNat ≤ s.cfg.qtyReadInputRegisters.max →
      s.mem.ir.length < start.toNat + 1 + q.toNat →
      exec (.reqReadInputRegisters start q) s
        = .next { s with rsp := some (.ok (.reply (some [0x84, s.cfg.excIllegalDataAddress]))) }) ∧
    (s.cfg.qtyReadInputRegisters.min ≤ q.toNat → q.toNat ≤ s.cfg.qtyReadInputRegisters.max → q.toNat ≤ 127 →
      start.toNat + 1 + q.toNat ≤ s.mem.ir.length →
      exec (.reqReadInputRegisters start q) s = .next { s with
        evtR := s.evtR
          ++ [⟨.inputRegister, start.toNat, .regs ((s.mem.ir.drop (start.toNat + 1)).take q.toNat)⟩]
        rsp := some (.ok (.reply (some ([0x04, BitVec.ofNat 8 (2 * q.toNat)]
          ++ ((s.mem.ir.drop (start.toNat + 1)).take q.toNat).flatMap be16)))) })

/-- R246, R247: the single writes at the slave: one element written, one event, the request echoed back; the bounds
rule; and the bad coil value, whatever the drop policy. -/
def Obligations.SlaveWritesSingle : Prop :=
  ∀ (a v : Word) (b : Bool) (s : State), s.StoreReady →
    (s.mem.cd.length < a.toNat + 2 → exec (.reqWriteSingleCoil a b) s
      = .next { s with rsp := some (.ok (.reply (some [0x85, s.cfg.excIllegalDataAddress]))) }) ∧
    (a.toNat + 2 ≤ s.mem.cd.length → exec (.reqWriteSingleCoil a b) s = .next { s with
      mem := { s.mem with cd := s.mem.cd.set (a.toNat + 1) b }
      evtW := s.evtW ++ [⟨.coil, a.toNat, .bits [b]⟩]
      rsp := some (.ok (.reply (some ([0x05] ++ be16 a ++ if b then [0xFF, 0x00] else [0x00, 0x00])))) }) ∧
    (v ≠ 0xFF00 → v ≠ 0x0000 → exec (.slaveExec ([0x05] ++ be16 a ++ be16 v)) s
      = .next { s with rsp := some (.ok (.reply (some [0x85, s.cfg.excIllegalDataValue]))) }) ∧
    (s.mem.hr.length < a.toNat + 2 → exec (.reqWriteSingleRegister a v) s
      = .next { s with rsp := some (.ok (.reply (some [0x86, s.cfg.excIllegalDataAddress]))) }) ∧
    (a.toNat + 2 ≤ s.mem.hr.length → exec (.reqWriteSingleRegister a v) s = .next { s with
      mem := { s.mem with hr := s.mem.hr.set (a.toNat + 1) v }
      evtW := s.evtW ++ [⟨.holdingRegister, a.toNat, .regs [v]⟩]
      rsp := some (.ok (.reply (some ([0x06] ++ be16 a ++ be16 v)))) })

/-- R248, R249: the multiple writes at the slave: quantity, bounds, and all or nothing. A well-formed message has at
most 2040 bits or 127 registers (R150). -/
def Obligations.SlaveWritesMultiple : Prop :=
  ∀ (start : Word) (bits : List Bool) (regs : List Word) (s : State), s.StoreReady →
    bits.length ≤ 2040 → regs.length ≤ 127 →
    (bits.length < s.cfg.qtyWriteMultipleCoils.min ∨ s.cfg.qtyWriteMultipleCoils.max < bits.length →
      exec (.reqWriteMultipleCoils start bits) s
        = .next { s with rsp := some (.ok (.reply (some [0x8F, s.cfg.excIllegalDataValue]))) }) ∧
    (s.cfg.qtyWriteMultipleCoils.min ≤ bits.length → bits.length ≤ s.cfg.qtyWriteMultipleCoils.max →
      s.mem.cd.length < start.toNat + 1 + bits.length →
      exec (.reqWriteMultipleCoils start bits) s
        = .next { s with rsp := some (.ok (.reply (some [0x8F, s.cfg.excIllegalDataAddress]))) }) ∧
    (s.cfg.qtyWriteMultipleCoils.min ≤ bits.length → bits.length ≤ s.cfg.qtyWriteMultipleCoils.max →
      start.toNat + 1 + bits.length ≤ s.mem.cd.length →
      exec (.reqWriteMultipleCoils start bits) s = .next { s with
        mem := { s.mem with
          cd := s.mem.cd.take (start.toNat + 1) ++ bits ++ s.mem.cd.drop (start.toNat + 1 + bits.length) }
        evtW := s.evtW ++ [⟨.coil, start.toNat, .bits bits⟩]
        rsp := some (.ok (.reply (some ([0x0F] ++ be16 start ++ be16 (BitVec.ofNat 16 bits.length))))) }) ∧
    (regs.length < s.cfg.qtyWriteMultipleRegisters.min ∨ s.cfg.qtyWriteMultipleRegisters.max < regs.length →
      exec (.reqWriteMultipleRegisters start regs) s
        = .next { s with rsp := some (.ok (.reply (some [0x90, s.cfg.excIllegalDataValue]))) }) ∧
    (s.cfg.qtyWriteMultipleRegisters.min ≤ regs.length → regs.length ≤ s.cfg.qtyWriteMultipleRegisters.max →
      s.mem.hr.length < start.toNat + 1 + regs.length →
      exec (.reqWriteMultipleRegisters start regs) s
        = .next { s with rsp := some (.ok (.reply (some [0x90, s.cfg.excIllegalDataAddress]))) }) ∧
    (s.cfg.qtyWriteMultipleRegisters.min ≤ regs.length → regs.length ≤ s.cfg.qtyWriteMultipleRegisters.max →
      start.toNat + 1 + regs.length ≤ s.mem.hr.length →
      exec (.reqWriteMultipleRegisters start regs) s = .next { s with
        mem := { s.mem with
          hr := s.mem.hr.take (start.toNat + 1) ++ regs ++ s.mem.hr.drop (start.toNat + 1 + regs.length) }
        evtW := s.evtW ++ [⟨.holdingRegister, start.toNat, .regs regs⟩]
        rsp := some (.ok (.reply (some ([0x10] ++ be16 start ++ be16 (BitVec.ofNat 16 regs.length))))) })

/-- R251, R252: the malformed request under both policies, and the unsupported function code, which is answered whatever
follows it. The store exists (R334, log entry 28). -/
def Obligations.SlaveRejections : Prop :=
  ∀ s : State, s.created = true →
    (∀ fc rest, fc ∉ ([0x01, 0x02, 0x03, 0x04, 0x05, 0x06, 0x0F, 0x10] : List Byte) →
      exec (.slaveExec (fc :: rest)) s
        = .next { s with rsp := some (.ok (.reply (some [fc ||| 0x80, s.cfg.excIllegalFunction]))) } ∧
      exec (.reqUnsupported fc) s
        = .next { s with rsp := some (.ok (.reply (some [fc ||| 0x80, s.cfg.excIllegalFunction]))) } ∧
      (128 ≤ fc.toNat → fc ||| 0x80 = fc)) ∧
    (∀ fc rest, decodeRequest (fc :: rest) = .error .length ∨ decodeRequest (fc :: rest) = .error .byteCount →
      (s.cfg.malformedPolicy = .drop →
        exec (.slaveExec (fc :: rest)) s = .next { s with rsp := some (.ok (.reply none)) }) ∧
      (∀ code, s.cfg.malformedPolicy = .exception code →
        exec (.slaveExec (fc :: rest)) s
          = .next { s with rsp := some (.ok (.reply (some [fc ||| 0x80, code]))) }))

/-- R241: `SLAVE.EXEC` is the row of the decoded request; with a store that is ready and a configuration whose answers
fit, it always completes, with at most one event record. -/
def Obligations.SLAVE_EXEC_Result : Prop :=
  (∀ (pdu : List Byte) (m : Request) (s : State), decodeRequest pdu = .ok m →
    exec (.slaveExec pdu) s = exec (Instr.ofRequest m) s) ∧
  (∀ (pdu : List Byte) (s : State), pdu ≠ [] → s.StoreReady → s.cfg.answersFit = true →
    ∃ t r, exec (.slaveExec pdu) s = .next t ∧ t.rsp = some (.ok (.reply r)) ∧
      t.evtR.length + t.evtW.length ≤ s.evtR.length + s.evtW.length + 1 ∧
      (r = none → s.cfg.malformedPolicy = .drop ∧ t = { s with rsp := t.rsp }))

/-- R240: one turn of the slave loop on a serial framing: silence for a frame that fails its integrity check or a unit id
that is not answered, the answer of `SLAVE.EXEC` in a frame with the request's unit id otherwise. The store exists
(R334, step 6). -/
def Obligations.SLAVE_STEP_Result : Prop :=
  ∀ (wire : List Byte) (s : State) (unframe : Except Error (Byte × List Byte)) (frame : Byte → List Byte → List Byte),
    s.created = true →
    (s.cfg.framing = .rtu ∧ unframe = rtuUnframe s.cfg wire ∧ frame = rtuFrame) ∨
      (s.cfg.framing = .ascii ∧ unframe = ascUnframe s.cfg wire ∧ frame = ascFrame) →
    (∀ e, unframe = .error e → exec (.slaveStep wire) s = .next { s with rsp := some (.ok (.reply none)) }) ∧
    (∀ unit pdu, unframe = .ok (unit, pdu) → s.cfg.unitFilter.getLsbD unit.toNat = false →
      exec (.slaveStep wire) s = .next { s with rsp := some (.ok (.reply none)) }) ∧
    (∀ unit pdu t, unframe = .ok (unit, pdu) → s.cfg.unitFilter.getLsbD unit.toNat = true →
      exec (.slaveExec pdu) s = .next t → t.rsp = some (.ok (.reply none)) →
      exec (.slaveStep wire) s = .next t) ∧
    (∀ unit pdu t rsp, unframe = .ok (unit, pdu) → s.cfg.unitFilter.getLsbD unit.toNat = true →
      exec (.slaveExec pdu) s = .next t → t.rsp = some (.ok (.reply (some rsp))) →
      1 ≤ rsp.length → rsp.length ≤ s.cfg.maxPdu →
      exec (.slaveStep wire) s = .next { t with
        slaveTx := t.slaveTx ++ [frame unit rsp], rsp := some (.ok (.reply (some (frame unit rsp)))) })

/-- The slave loop under MBAP framing. That the response carries the request's transaction identifier, and that a frame
that fails is answered with nothing, are the model's choices (log entry 16; R6, R233). The store exists (R334, step 6). -/
def Obligations.SlaveStepUnderMbap : Prop :=
  ∀ (wire : List Byte) (s : State), s.created = true → s.cfg.framing = .mbap → s.cfg.mbapPresent = true →
    (∀ e, mbapUnframe wire = .error e → exec (.slaveStep wire) s = .next { s with rsp := some (.ok (.reply none)) }) ∧
    (∀ tid unit pdu t rsp, mbapUnframe wire = .ok (tid, unit, pdu) →
      s.cfg.unitFilter.getLsbD unit.toNat = true → exec (.slaveExec pdu) s = .next t →
      t.rsp = some (.ok (.reply (some rsp))) → 1 ≤ rsp.length → rsp.length ≤ s.cfg.maxPdu →
      exec (.slaveStep wire) s = .next { t with
        slaveTx := t.slaveTx ++ [mbapFrame tid unit rsp]
        rsp := some (.ok (.reply (some (mbapFrame tid unit rsp)))) })

/-- R240, R244: with a store that is ready and a configuration whose answers fit, every candidate frame is taken to its
end, and exactly the reply, if there is one, is written. -/
def Obligations.SlaveStepCompletes : Prop :=
  ∀ (wire : List Byte) (s : State), s.StoreReady → s.cfg.answersFit = true →
    ∃ t r, exec (.slaveStep wire) s = .next t ∧ t.rsp = some (.ok (.reply r)) ∧
      t.slaveTx = s.slaveTx ++ r.toList

/-- R253: no response is sent in exactly three cases. -/
def Obligations.SilenceInExactlyThreeCases : Prop :=
  ∀ (wire : List Byte) (s t : State) (r : Option (List Byte)),
    exec (.slaveStep wire) s = .next t → t.rsp = some (.ok (.reply r)) →
    (r = none ↔
      (∃ e, unframeBy s.cfg wire = .error e) ∨
      (∃ tid unit pdu, unframeBy s.cfg wire = .ok (tid, unit, pdu) ∧ unitAccepted s.cfg unit = false) ∨
      (∃ tid unit pdu, unframeBy s.cfg wire = .ok (tid, unit, pdu) ∧ unitAccepted s.cfg unit = true ∧
        (decodeRequest pdu = .error .length ∨ decodeRequest pdu = .error .byteCount) ∧
        s.cfg.malformedPolicy = .drop))

/-- R33: the slave datapath keeps no state: its answer depends on CFG and on the store alone, and what it changes is the
banks, the event streams and its outputs. -/
def Obligations.SlaveIsStateless : Prop :=
  (∀ (pdu : List Byte) (s t : State), exec (.slaveExec pdu) s = .next t →
    t = { s with mem := t.mem, evtR := t.evtR, evtW := t.evtW, rsp := t.rsp }) ∧
  (∀ (wire : List Byte) (s t : State), exec (.slaveStep wire) s = .next t →
    t = { s with mem := t.mem, evtR := t.evtR, evtW := t.evtW, slaveTx := t.slaveTx, rsp := t.rsp }) ∧
  (∀ (pdu : List Byte) (s t s' : State), s.cfg = t.cfg → s.mem = t.mem → s.created = t.created →
    s.dsBusy = t.dsBusy → exec (.slaveExec pdu) s = .next s' →
    ∃ t', exec (.slaveExec pdu) t = .next t' ∧ t'.rsp = s'.rsp ∧ t'.mem = s'.mem)

/-- A request PDU that is presented has the effect of `SLAVE.EXEC` on it, and a response PDU that of `PDU.DEC_RSP`,
whether it is a row of the table or not (R182, R241; log entries 2, 24, 25). -/
def Obligations.PresentedPduIsItsCommand : Prop :=
  ∀ (pdu : List Byte) (e : Expect) (s : State) (rest : List Offer),
    step { s with pending := .request pdu :: rest } = exec (.slaveExec pdu) { s with pending := rest } ∧
    step { s with pending := .response pdu e :: rest } = exec (.pduDecRsp pdu e) { s with pending := rest }

/-! ## The Master -/

/-- R271 to R275: one request at the Master of a block whose store exists (R334, step 6), from the answers its transport
gives. Every attempt but the last ended in
an error the retry budget covers; the last is an intact frame, or the budget of `RETRIES + 1` sends is spent. Every send
is the identical frame. That the operation is one step, that an empty queue is a timeout, and that the request is cleared
at the end are the model's choices (log entries 12, 13, 17); `nextTid` is a free value under MBAP (log entry 15). -/
def Obligations.MASTER_EXECUTE_Result : Prop :=
  ∀ (unit : Byte) (m : Request) (s : State), s.mstate = .idle → s.created = true → m.sendable s.cfg →
    ∃ (t : State) (k : Nat), exec (.masterExecute unit m) s = .next t ∧
      1 ≤ k ∧ k ≤ s.cfg.retries + 1 ∧
      t = { s with
        mstate := .idle, req := none, attempts := k, tid := s.nextTid, freeCtr := t.freeCtr, mtrace := t.mtrace
        masterTx := s.masterTx ++ List.replicate k (m.frame s.cfg s.nextTid unit)
        masterRx := s.masterRx.drop k, rsp := t.rsp } ∧
      (∀ j, j + 1 < k → ((s.masterRx.getD j .timeout).transportError? s.cfg).isSome = true) ∧
      ((∃ r, (s.masterRx.getD (k - 1) .timeout).intactResult s.cfg unit m.expect = some r ∧ t.rsp = some r) ∨
       (k = s.cfg.retries + 1 ∧
        ∃ e, (s.masterRx.getD (k - 1) .timeout).transportError? s.cfg = some e ∧ t.rsp = some (.error e)))

/-- R272, R273: a transport that answers every attempt with a timeout sees exactly `RETRIES + 1` sends, and the result is
`TimeoutError`. The store exists (R334, step 6). Rests on log entries 12, 13. -/
def Obligations.MasterGivesUpAfterItsRetries : Prop :=
  ∀ (unit : Byte) (m : Request) (s : State), s.mstate = .idle → s.created = true → m.sendable s.cfg →
    (∀ a ∈ s.masterRx, a = .timeout) →
    ∃ t : State, exec (.masterExecute unit m) s = .next t ∧ t.rsp = some (.error .timeoutError) ∧
      t.masterTx = s.masterTx ++ List.replicate (s.cfg.retries + 1) (m.frame s.cfg s.nextTid unit) ∧
      t.mstate = .idle

/-- R270, R271: the states the Master goes through follow the arrows of its state machine, from Idle back to Idle. The
trace is the model's own (log entry 12). -/
def Obligations.MasterFollowsItsStateMachine : Prop :=
  ∀ (unit : Byte) (m : Request) (s t : State), exec (.masterExecute unit m) s = .next t →
    ∃ tr : List MState, t.mtrace = s.mtrace ++ tr ∧ MState.idle.path tr = true ∧
      tr.head? = some .sending ∧ tr.getLast? = some .idle

/-- R276: a request presented while one is outstanding is refused. -/
def Obligations.MasterRefusesASecondRequest : Prop :=
  ∀ (unit : Byte) (m : Request) (s : State), s.mstate ≠ .idle →
    exec (.masterExecute unit m) s = .refused .masterBusy

/-! ## The whole machine -/

/-- The invariant holds at reset and before creation, under every configuration (R22, R32, R37; log entries 8, 10, 17,
28). -/
def Obligations.InvariantAtReset : Prop :=
  State.reset.Inv ∧ ∀ c, (State.resetWith c).Inv ∧ (State.beforeCreation c).Inv

/-- Every step keeps the invariant: the sentinels are there and zero, no operation is left in progress, the observer
sets are in canonical form, every event carries data of its bank's kind, the Master is idle with no request outstanding,
and until the store is created nothing has changed but the results (R22, R23, R29, R31, R32, R271, R334; log entries 8,
9, 10, 12, 17, 28). -/
def Obligations.StepKeepsTheInvariant : Prop :=
  ∀ s t : State, s.Inv → step s = .next t → t.Inv

/-- R23, R24, R28, R30: no step changes CFG, undoes the creation, shortens a bank, or takes back an event or a frame. -/
def Obligations.StepOnlyExtends : Prop :=
  ∀ s t : State, s.created = true → step s = .next t → s.Extends t

/-- R305: an operation that raises an error changes nothing but the response port; the Master's own error leaves the
banks, the events and CFG alone. -/
def Obligations.ErrorsHaveNoSideEffect : Prop :=
  ∀ (i : Instr) (s t : State) (e : Error), exec i s = .next t → t.rsp = some (.error e) →
    t.mem = s.mem ∧ t.evtR = s.evtR ∧ t.evtW = s.evtW ∧ t.cfg = s.cfg ∧
    ((∀ unit m, i ≠ .masterExecute unit m) → t = { s with rsp := some (.error e) })

/-- R25: an operation changes no bank its row of the table does not write, and only the administrative operations change
a length. -/
def Obligations.BanksChangeAsTheTableSays : Prop :=
  ∀ (i : Instr) (s t : State) (b : Bank), exec i s = .next t →
    (i.changesBank b = false → t.mem.bank b = s.mem.bank b) ∧
    ((∀ c vs, i ≠ .dsGrow c vs) → i ≠ .dsCreate → (∀ cd id hr ir, i ≠ .dsLoad cd id hr ir) →
      t.mem.len b = s.mem.len b)

/-- R314, R22: what comes from the wire has protocol access only: it creates nothing, changes no length, no sentinel, no
observer set, and neither ID nor IR, and it emits at most one record. -/
def Obligations.WireHasProtocolAccessOnly : Prop :=
  ∀ (i : Instr) (s t : State), i.fromWire = true → exec i s = .next t →
    t.created = s.created ∧ t.obsR = s.obsR ∧ t.obsW = s.obsW ∧ t.cfg = s.cfg ∧
    t.mem.id = s.mem.id ∧ t.mem.ir = s.mem.ir ∧
    (∀ b, t.mem.len b = s.mem.len b ∧ t.mem.elem? b 0 = s.mem.elem? b 0) ∧
    t.evtR.length + t.evtW.length ≤ s.evtR.length + s.evtW.length + 1

/-- R35: the framer, codec and response operations read nothing but CFG and change nothing but the response port. -/
def Obligations.FramerAndCodecArePure : Prop :=
  ∀ (i : Instr) (s t s' : State), i.isPure = true → s.cfg = t.cfg → exec i s = .next s' →
    s' = { s with rsp := s'.rsp } ∧ exec i t = .next { t with rsp := s'.rsp }

/-- R26, R332: a step takes the next operation presented and runs the instruction it decodes to; with nothing presented
the machine stays as it is. The list of presented operations is log entry 2. -/
def Obligations.StepRunsTheDecodedInstruction : Prop :=
  (∀ (s : State) (o : Offer) (rest : List Offer) (i : Instr), s.pending = o :: rest → decode o = .ok i →
    step s = exec i { s with pending := rest }) ∧
  (∀ s : State, s.pending = [] → step s = .next s) ∧
  (∀ (s : State) (nbits w : Nat) (i : Instr), decodeTableWord nbits w = some i →
    step (s.withFetchWord nbits w) = exec i s)
end

