-- ==== Sys2Proof/Laws/Codec.lean ====
section
/-! SUPPORT. Byte order, bit packing and function codes: what a decoder reads from what an encoder wrote
(20_memory.md R59, R60; 30_encoding.md R86, R89). -/

namespace Sys2Proof

/-! ### Big-endian fields -/

theorem u16be_toNat (a b : Byte) : (u16be a b).toNat = a.toNat * 256 + b.toNat := by
  rw [u16be, BitVec.toNat_append, ← Nat.shiftLeft_add_eq_or_of_lt b.isLt, Nat.shiftLeft_eq]

theorem hiByte_toNat (v : Word) : (hiByte v).toNat = v.toNat / 256 := by
  have := v.isLt
  simp [hiByte, Nat.shiftRight_eq_div_pow]; omega

theorem loByte_toNat (v : Word) : (loByte v).toNat = v.toNat % 256 := by
  simp [loByte]

@[simp] theorem u16be_hi_lo (v : Word) : u16be (hiByte v) (loByte v) = v := by
  apply BitVec.eq_of_toNat_eq
  rw [u16be_toNat, hiByte_toNat, loByte_toNat]; omega

theorem hiByte_u16be (a b : Byte) : hiByte (u16be a b) = a := by
  have := b.isLt
  apply BitVec.eq_of_toNat_eq
  rw [hiByte_toNat, u16be_toNat]; omega

theorem loByte_u16be (a b : Byte) : loByte (u16be a b) = b := by
  have := b.isLt
  apply BitVec.eq_of_toNat_eq
  rw [loByte_toNat, u16be_toNat]; omega

@[simp] theorem be16_u16be (a b : Byte) : be16 (u16be a b) = [a, b] := by
  simp [be16, hiByte_u16be, loByte_u16be]

@[simp] theorem be16_length (v : Word) : (be16 v).length = 2 := rfl
@[simp] theorem le16_length (v : Word) : (le16 v).length = 2 := rfl

/-! ### Registers -/

@[simp] theorem encodeRegs_nil : encodeRegs [] = [] := rfl

@[simp] theorem encodeRegs_cons (v : Word) (vs : List Word) :
    encodeRegs (v :: vs) = hiByte v :: loByte v :: encodeRegs vs := rfl

@[simp] theorem encodeRegs_length (vs : List Word) : (encodeRegs vs).length = 2 * vs.length := by
  induction vs with
  | nil => rfl
  | cons v vs ih => simp [ih]; omega

@[simp] theorem decodeRegs_encodeRegs (vs : List Word) : decodeRegs (encodeRegs vs) = vs := by
  induction vs with
  | nil => rfl
  | cons v vs ih => simp [decodeRegs, ih]

theorem decodeRegs_length (bs : List Byte) : (decodeRegs bs).length = bs.length / 2 := by
  induction bs using decodeRegs.induct with
  | case1 a b rest ih => simp [decodeRegs, ih]; omega
  | case2 a => simp [decodeRegs]
  | case3 => rfl

theorem encodeRegs_decodeRegs {bs : List Byte} (h : bs.length % 2 = 0) : encodeRegs (decodeRegs bs) = bs := by
  induction bs using decodeRegs.induct with
  | case1 a b rest ih =>
    simp only [List.length_cons] at h
    simp [decodeRegs, hiByte_u16be, loByte_u16be, ih (by omega)]
  | case2 a => simp at h
  | case3 => rfl

/-! ### Packed bits -/

theorem byteOfBits_getLsbD (f : Nat → Bool) {i : Nat} (hi : i < 8) : (byteOfBits f).getLsbD i = f i := by
  have key : ∀ b0 b1 b2 b3 b4 b5 b6 b7 : Bool, ∀ i : Fin 8,
      (BitVec.ofNat 8 (b0.toNat + 2 * b1.toNat + 4 * b2.toNat + 8 * b3.toNat
        + 16 * b4.toNat + 32 * b5.toNat + 64 * b6.toNat + 128 * b7.toNat)).getLsbD i
        = [b0, b1, b2, b3, b4, b5, b6, b7].getD i false := by
    decide +kernel
  have := key (f 0) (f 1) (f 2) (f 3) (f 4) (f 5) (f 6) (f 7) ⟨i, hi⟩
  rw [byteOfBits, this]
  rcases i with _ | _ | _ | _ | _ | _ | _ | _ | n
  all_goals first | rfl | omega

@[simp] theorem packBits_length (bits : List Bool) : (packBits bits).length = ceil8 bits.length := by
  simp [packBits]

/-- Bit `i` of data byte `j` is element `8 * j + i`, and 0 past the end (R60). -/
theorem packBits_getLsbD (bits : List Bool) (j : Nat) {i : Nat} (hi : i < 8) :
    ((packBits bits).getD j 0).getLsbD i = bits.getD (8 * j + i) false := by
  by_cases hj : j < ceil8 bits.length
  · simp [packBits, List.getD_eq_getElem?_getD, hj, byteOfBits_getLsbD _ hi]
  · have h : bits.length ≤ 8 * j + i := by unfold ceil8 at hj; omega
    simp [packBits, List.getD_eq_getElem?_getD, hj, h]

@[simp] theorem unpackBits_length (bytes : List Byte) (q : Nat) : (unpackBits bytes q).length = q := by
  simp [unpackBits]

theorem unpackBits_getElem? (bytes : List Byte) {q k : Nat} (h : k < q) :
    (unpackBits bytes q)[k]? = some ((bytes.getD (k / 8) 0).getLsbD (k % 8)) := by
  simp [unpackBits, h]

/-- Packing loses nothing but the padding (R60). -/
@[simp] theorem unpackBits_packBits (bits : List Bool) : unpackBits (packBits bits) bits.length = bits := by
  apply List.ext_getElem?
  intro k
  by_cases h : k < bits.length
  · rw [unpackBits_getElem? _ h, packBits_getLsbD _ _ (Nat.mod_lt _ (by omega)),
      show 8 * (k / 8) + k % 8 = k by omega]
    simp [h]
  · simp [h]

/-- A count that fits one byte is read back from it. -/
theorem ofNat8_toNat {n : Nat} (h : n ≤ 255) : (BitVec.ofNat 8 n).toNat = n := by
  simp; omega

theorem ofNat16_toNat {n : Nat} (h : n ≤ 65535) : (BitVec.ofNat 16 n).toNat = n := by
  simp; omega

theorem ceil8_le {q : Nat} (h : q ≤ 2040) : ceil8 q ≤ 255 := by unfold ceil8; omega

/-! ### Coil values and function codes -/

@[simp] theorem coilValue?_coilField (b : Bool) : coilValue? (coilField b) = some b := by cases b <;> decide

theorem coilField_of_coilValue? {v : Word} {b : Bool} (h : coilValue? v = some b) : coilField b = v := by
  unfold coilValue? at h
  split_ifs at h with h1 h2
  · cases h; exact h1.symm
  · cases h; exact h2.symm

@[simp] theorem FuncCode.ofByte?_toByte (f : FuncCode) : FuncCode.ofByte? f.toByte = some f := by
  cases f <;> decide

theorem FuncCode.toByte_of_ofByte? {b : Byte} {f : FuncCode} (h : FuncCode.ofByte? b = some f) : f.toByte = b := by
  unfold FuncCode.ofByte? at h
  split_ifs at h <;> cases h <;> simp_all [FuncCode.toByte]

/-- A byte is unsupported exactly when it is none of the eight function codes (R99). -/
theorem FuncCode.ofByte?_eq_none {b : Byte} : FuncCode.ofByte? b = none ↔ unsupportedByte b = true := by
  revert b; decide +kernel

@[simp] theorem FuncCode.exceptionBit_toByte (f : FuncCode) : exceptionBit f.toByte = false := by
  cases f <;> decide

/-- The first byte of an encoded request is its function code (R85). -/
theorem encodeRequest_eq (m : Request) : ∃ rest, encodeRequest m = m.funcCode.toByte :: rest := by
  cases m <;> exact ⟨_, rfl⟩

/-- The first byte of an encoded response is its function code (R85, R181). -/
theorem encodeResponse_eq (m : Response) : ∃ rest, encodeResponse m = m.funcCode.toByte :: rest := by
  cases m <;> exact ⟨_, rfl⟩

theorem twoWords_eq_ok {rest : List Byte} {v w : Word} :
    twoWords rest = .ok (v, w) ↔ rest = be16 v ++ be16 w := by
  constructor
  · intro h
    unfold twoWords at h
    split at h
    · simp only [Except.ok.injEq, Prod.mk.injEq] at h
      obtain ⟨rfl, rfl⟩ := h
      simp
    · cases h
  · rintro rfl
    simp [be16, twoWords]

@[simp] theorem twoWords_be16 (v w : Word) : twoWords (be16 v ++ be16 w) = .ok (v, w) := twoWords_eq_ok.2 rfl

@[simp] theorem coilFields_be16 (v : Word) (b : Bool) :
    coilFields (be16 v ++ be16 (coilField b)) = .ok (v, b) := by
  simp [coilFields]

@[simp] theorem countedData_eq {data : List Byte} (h : data.length ≤ 255) :
    countedData (BitVec.ofNat 8 data.length :: data) = .ok data := by
  simp only [countedData]
  rw [ofNat8_toNat h, if_neg (by simp)]

end Sys2Proof
end

