-- ==== Sys2Proof/Laws/State.lean ====
section
/-! SUPPORT. One lemma for each field under each named update of the state, so that no proof unfolds an update. -/

namespace Sys2Proof.Machine

/-! ### State.answer -/

@[simp] theorem State.answer_cfg (s : State) (r : Result) : (s.answer r).cfg = s.cfg := rfl
@[simp] theorem State.answer_mem (s : State) (r : Result) : (s.answer r).mem = s.mem := rfl
@[simp] theorem State.answer_created (s : State) (r : Result) : (s.answer r).created = s.created := rfl
@[simp] theorem State.answer_dsBusy (s : State) (r : Result) : (s.answer r).dsBusy = s.dsBusy := rfl
@[simp] theorem State.answer_obsR (s : State) (r : Result) : (s.answer r).obsR = s.obsR := rfl
@[simp] theorem State.answer_obsW (s : State) (r : Result) : (s.answer r).obsW = s.obsW := rfl
@[simp] theorem State.answer_evtR (s : State) (r : Result) : (s.answer r).evtR = s.evtR := rfl
@[simp] theorem State.answer_evtW (s : State) (r : Result) : (s.answer r).evtW = s.evtW := rfl
@[simp] theorem State.answer_mstate (s : State) (r : Result) : (s.answer r).mstate = s.mstate := rfl
@[simp] theorem State.answer_attempts (s : State) (r : Result) : (s.answer r).attempts = s.attempts := rfl
@[simp] theorem State.answer_req (s : State) (r : Result) : (s.answer r).req = s.req := rfl
@[simp] theorem State.answer_tid (s : State) (r : Result) : (s.answer r).tid = s.tid := rfl
@[simp] theorem State.answer_mtrace (s : State) (r : Result) : (s.answer r).mtrace = s.mtrace := rfl
@[simp] theorem State.answer_pending (s : State) (r : Result) : (s.answer r).pending = s.pending := rfl
@[simp] theorem State.answer_masterRx (s : State) (r : Result) : (s.answer r).masterRx = s.masterRx := rfl
@[simp] theorem State.answer_masterTx (s : State) (r : Result) : (s.answer r).masterTx = s.masterTx := rfl
@[simp] theorem State.answer_slaveTx (s : State) (r : Result) : (s.answer r).slaveTx = s.slaveTx := rfl
@[simp] theorem State.answer_rsp (s : State) (r : Result) : (s.answer r).rsp = some r := rfl
@[simp] theorem State.answer_freeCtr (s : State) (r : Result) : (s.answer r).freeCtr = s.freeCtr := rfl

/-! ### State.raise -/

@[simp] theorem State.raise_cfg (s : State) (e : Error) : (s.raise e).cfg = s.cfg := rfl
@[simp] theorem State.raise_mem (s : State) (e : Error) : (s.raise e).mem = s.mem := rfl
@[simp] theorem State.raise_created (s : State) (e : Error) : (s.raise e).created = s.created := rfl
@[simp] theorem State.raise_dsBusy (s : State) (e : Error) : (s.raise e).dsBusy = s.dsBusy := rfl
@[simp] theorem State.raise_obsR (s : State) (e : Error) : (s.raise e).obsR = s.obsR := rfl
@[simp] theorem State.raise_obsW (s : State) (e : Error) : (s.raise e).obsW = s.obsW := rfl
@[simp] theorem State.raise_evtR (s : State) (e : Error) : (s.raise e).evtR = s.evtR := rfl
@[simp] theorem State.raise_evtW (s : State) (e : Error) : (s.raise e).evtW = s.evtW := rfl
@[simp] theorem State.raise_mstate (s : State) (e : Error) : (s.raise e).mstate = s.mstate := rfl
@[simp] theorem State.raise_attempts (s : State) (e : Error) : (s.raise e).attempts = s.attempts := rfl
@[simp] theorem State.raise_req (s : State) (e : Error) : (s.raise e).req = s.req := rfl
@[simp] theorem State.raise_tid (s : State) (e : Error) : (s.raise e).tid = s.tid := rfl
@[simp] theorem State.raise_mtrace (s : State) (e : Error) : (s.raise e).mtrace = s.mtrace := rfl
@[simp] theorem State.raise_pending (s : State) (e : Error) : (s.raise e).pending = s.pending := rfl
@[simp] theorem State.raise_masterRx (s : State) (e : Error) : (s.raise e).masterRx = s.masterRx := rfl
@[simp] theorem State.raise_masterTx (s : State) (e : Error) : (s.raise e).masterTx = s.masterTx := rfl
@[simp] theorem State.raise_slaveTx (s : State) (e : Error) : (s.raise e).slaveTx = s.slaveTx := rfl
@[simp] theorem State.raise_rsp (s : State) (e : Error) : (s.raise e).rsp = some (.error e) := rfl
@[simp] theorem State.raise_freeCtr (s : State) (e : Error) : (s.raise e).freeCtr = s.freeCtr := rfl

/-! ### State.acquire -/

@[simp] theorem State.acquire_cfg (s : State) : (s.acquire).cfg = s.cfg := rfl
@[simp] theorem State.acquire_mem (s : State) : (s.acquire).mem = s.mem := rfl
@[simp] theorem State.acquire_created (s : State) : (s.acquire).created = s.created := rfl
@[simp] theorem State.acquire_dsBusy (s : State) : (s.acquire).dsBusy = true := rfl
@[simp] theorem State.acquire_obsR (s : State) : (s.acquire).obsR = s.obsR := rfl
@[simp] theorem State.acquire_obsW (s : State) : (s.acquire).obsW = s.obsW := rfl
@[simp] theorem State.acquire_evtR (s : State) : (s.acquire).evtR = s.evtR := rfl
@[simp] theorem State.acquire_evtW (s : State) : (s.acquire).evtW = s.evtW := rfl
@[simp] theorem State.acquire_mstate (s : State) : (s.acquire).mstate = s.mstate := rfl
@[simp] theorem State.acquire_attempts (s : State) : (s.acquire).attempts = s.attempts := rfl
@[simp] theorem State.acquire_req (s : State) : (s.acquire).req = s.req := rfl
@[simp] theorem State.acquire_tid (s : State) : (s.acquire).tid = s.tid := rfl
@[simp] theorem State.acquire_mtrace (s : State) : (s.acquire).mtrace = s.mtrace := rfl
@[simp] theorem State.acquire_pending (s : State) : (s.acquire).pending = s.pending := rfl
@[simp] theorem State.acquire_masterRx (s : State) : (s.acquire).masterRx = s.masterRx := rfl
@[simp] theorem State.acquire_masterTx (s : State) : (s.acquire).masterTx = s.masterTx := rfl
@[simp] theorem State.acquire_slaveTx (s : State) : (s.acquire).slaveTx = s.slaveTx := rfl
@[simp] theorem State.acquire_rsp (s : State) : (s.acquire).rsp = s.rsp := rfl
@[simp] theorem State.acquire_freeCtr (s : State) : (s.acquire).freeCtr = s.freeCtr := rfl

/-! ### State.release -/

@[simp] theorem State.release_cfg (s : State) : (s.release).cfg = s.cfg := rfl
@[simp] theorem State.release_mem (s : State) : (s.release).mem = s.mem := rfl
@[simp] theorem State.release_created (s : State) : (s.release).created = s.created := rfl
@[simp] theorem State.release_dsBusy (s : State) : (s.release).dsBusy = false := rfl
@[simp] theorem State.release_obsR (s : State) : (s.release).obsR = s.obsR := rfl
@[simp] theorem State.release_obsW (s : State) : (s.release).obsW = s.obsW := rfl
@[simp] theorem State.release_evtR (s : State) : (s.release).evtR = s.evtR := rfl
@[simp] theorem State.release_evtW (s : State) : (s.release).evtW = s.evtW := rfl
@[simp] theorem State.release_mstate (s : State) : (s.release).mstate = s.mstate := rfl
@[simp] theorem State.release_attempts (s : State) : (s.release).attempts = s.attempts := rfl
@[simp] theorem State.release_req (s : State) : (s.release).req = s.req := rfl
@[simp] theorem State.release_tid (s : State) : (s.release).tid = s.tid := rfl
@[simp] theorem State.release_mtrace (s : State) : (s.release).mtrace = s.mtrace := rfl
@[simp] theorem State.release_pending (s : State) : (s.release).pending = s.pending := rfl
@[simp] theorem State.release_masterRx (s : State) : (s.release).masterRx = s.masterRx := rfl
@[simp] theorem State.release_masterTx (s : State) : (s.release).masterTx = s.masterTx := rfl
@[simp] theorem State.release_slaveTx (s : State) : (s.release).slaveTx = s.slaveTx := rfl
@[simp] theorem State.release_rsp (s : State) : (s.release).rsp = s.rsp := rfl
@[simp] theorem State.release_freeCtr (s : State) : (s.release).freeCtr = s.freeCtr := rfl

/-! ### State.setMem -/

@[simp] theorem State.setMem_cfg (s : State) (m : Memory) : (s.setMem m).cfg = s.cfg := rfl
@[simp] theorem State.setMem_mem (s : State) (m : Memory) : (s.setMem m).mem = m := rfl
@[simp] theorem State.setMem_created (s : State) (m : Memory) : (s.setMem m).created = s.created := rfl
@[simp] theorem State.setMem_dsBusy (s : State) (m : Memory) : (s.setMem m).dsBusy = s.dsBusy := rfl
@[simp] theorem State.setMem_obsR (s : State) (m : Memory) : (s.setMem m).obsR = s.obsR := rfl
@[simp] theorem State.setMem_obsW (s : State) (m : Memory) : (s.setMem m).obsW = s.obsW := rfl
@[simp] theorem State.setMem_evtR (s : State) (m : Memory) : (s.setMem m).evtR = s.evtR := rfl
@[simp] theorem State.setMem_evtW (s : State) (m : Memory) : (s.setMem m).evtW = s.evtW := rfl
@[simp] theorem State.setMem_mstate (s : State) (m : Memory) : (s.setMem m).mstate = s.mstate := rfl
@[simp] theorem State.setMem_attempts (s : State) (m : Memory) : (s.setMem m).attempts = s.attempts := rfl
@[simp] theorem State.setMem_req (s : State) (m : Memory) : (s.setMem m).req = s.req := rfl
@[simp] theorem State.setMem_tid (s : State) (m : Memory) : (s.setMem m).tid = s.tid := rfl
@[simp] theorem State.setMem_mtrace (s : State) (m : Memory) : (s.setMem m).mtrace = s.mtrace := rfl
@[simp] theorem State.setMem_pending (s : State) (m : Memory) : (s.setMem m).pending = s.pending := rfl
@[simp] theorem State.setMem_masterRx (s : State) (m : Memory) : (s.setMem m).masterRx = s.masterRx := rfl
@[simp] theorem State.setMem_masterTx (s : State) (m : Memory) : (s.setMem m).masterTx = s.masterTx := rfl
@[simp] theorem State.setMem_slaveTx (s : State) (m : Memory) : (s.setMem m).slaveTx = s.slaveTx := rfl
@[simp] theorem State.setMem_rsp (s : State) (m : Memory) : (s.setMem m).rsp = s.rsp := rfl
@[simp] theorem State.setMem_freeCtr (s : State) (m : Memory) : (s.setMem m).freeCtr = s.freeCtr := rfl

/-! ### State.slaveWrite -/

@[simp] theorem State.slaveWrite_cfg (s : State) (w : List Byte) : (s.slaveWrite w).cfg = s.cfg := rfl
@[simp] theorem State.slaveWrite_mem (s : State) (w : List Byte) : (s.slaveWrite w).mem = s.mem := rfl
@[simp] theorem State.slaveWrite_created (s : State) (w : List Byte) : (s.slaveWrite w).created = s.created := rfl
@[simp] theorem State.slaveWrite_dsBusy (s : State) (w : List Byte) : (s.slaveWrite w).dsBusy = s.dsBusy := rfl
@[simp] theorem State.slaveWrite_obsR (s : State) (w : List Byte) : (s.slaveWrite w).obsR = s.obsR := rfl
@[simp] theorem State.slaveWrite_obsW (s : State) (w : List Byte) : (s.slaveWrite w).obsW = s.obsW := rfl
@[simp] theorem State.slaveWrite_evtR (s : State) (w : List Byte) : (s.slaveWrite w).evtR = s.evtR := rfl
@[simp] theorem State.slaveWrite_evtW (s : State) (w : List Byte) : (s.slaveWrite w).evtW = s.evtW := rfl
@[simp] theorem State.slaveWrite_mstate (s : State) (w : List Byte) : (s.slaveWrite w).mstate = s.mstate := rfl
@[simp] theorem State.slaveWrite_attempts (s : State) (w : List Byte) : (s.slaveWrite w).attempts = s.attempts := rfl
@[simp] theorem State.slaveWrite_req (s : State) (w : List Byte) : (s.slaveWrite w).req = s.req := rfl
@[simp] theorem State.slaveWrite_tid (s : State) (w : List Byte) : (s.slaveWrite w).tid = s.tid := rfl
@[simp] theorem State.slaveWrite_mtrace (s : State) (w : List Byte) : (s.slaveWrite w).mtrace = s.mtrace := rfl
@[simp] theorem State.slaveWrite_pending (s : State) (w : List Byte) : (s.slaveWrite w).pending = s.pending := rfl
@[simp] theorem State.slaveWrite_masterRx (s : State) (w : List Byte) : (s.slaveWrite w).masterRx = s.masterRx := rfl
@[simp] theorem State.slaveWrite_masterTx (s : State) (w : List Byte) : (s.slaveWrite w).masterTx = s.masterTx := rfl
@[simp] theorem State.slaveWrite_slaveTx (s : State) (w : List Byte) : (s.slaveWrite w).slaveTx = s.slaveTx ++ [w] := rfl
@[simp] theorem State.slaveWrite_rsp (s : State) (w : List Byte) : (s.slaveWrite w).rsp = s.rsp := rfl
@[simp] theorem State.slaveWrite_freeCtr (s : State) (w : List Byte) : (s.slaveWrite w).freeCtr = s.freeCtr := rfl

/-! ### State.goMaster -/

@[simp] theorem State.goMaster_cfg (s : State) (m : MState) : (s.goMaster m).cfg = s.cfg := rfl
@[simp] theorem State.goMaster_mem (s : State) (m : MState) : (s.goMaster m).mem = s.mem := rfl
@[simp] theorem State.goMaster_created (s : State) (m : MState) : (s.goMaster m).created = s.created := rfl
@[simp] theorem State.goMaster_dsBusy (s : State) (m : MState) : (s.goMaster m).dsBusy = s.dsBusy := rfl
@[simp] theorem State.goMaster_obsR (s : State) (m : MState) : (s.goMaster m).obsR = s.obsR := rfl
@[simp] theorem State.goMaster_obsW (s : State) (m : MState) : (s.goMaster m).obsW = s.obsW := rfl
@[simp] theorem State.goMaster_evtR (s : State) (m : MState) : (s.goMaster m).evtR = s.evtR := rfl
@[simp] theorem State.goMaster_evtW (s : State) (m : MState) : (s.goMaster m).evtW = s.evtW := rfl
@[simp] theorem State.goMaster_mstate (s : State) (m : MState) : (s.goMaster m).mstate = m := rfl
@[simp] theorem State.goMaster_attempts (s : State) (m : MState) : (s.goMaster m).attempts = s.attempts := rfl
@[simp] theorem State.goMaster_req (s : State) (m : MState) : (s.goMaster m).req = s.req := rfl
@[simp] theorem State.goMaster_tid (s : State) (m : MState) : (s.goMaster m).tid = s.tid := rfl
@[simp] theorem State.goMaster_mtrace (s : State) (m : MState) : (s.goMaster m).mtrace = s.mtrace ++ [m] := rfl
@[simp] theorem State.goMaster_pending (s : State) (m : MState) : (s.goMaster m).pending = s.pending := rfl
@[simp] theorem State.goMaster_masterRx (s : State) (m : MState) : (s.goMaster m).masterRx = s.masterRx := rfl
@[simp] theorem State.goMaster_masterTx (s : State) (m : MState) : (s.goMaster m).masterTx = s.masterTx := rfl
@[simp] theorem State.goMaster_slaveTx (s : State) (m : MState) : (s.goMaster m).slaveTx = s.slaveTx := rfl
@[simp] theorem State.goMaster_rsp (s : State) (m : MState) : (s.goMaster m).rsp = s.rsp := rfl
@[simp] theorem State.goMaster_freeCtr (s : State) (m : MState) : (s.goMaster m).freeCtr = s.freeCtr := rfl

/-! ### State.emit -/

@[simp] theorem State.emit_readFrom_evtR (s : State) (e : Event) : (s.emit .readFrom e).evtR = s.evtR ++ [e] := rfl
@[simp] theorem State.emit_readFrom_evtW (s : State) (e : Event) : (s.emit .readFrom e).evtW = s.evtW := rfl
@[simp] theorem State.emit_writtenTo_evtR (s : State) (e : Event) : (s.emit .writtenTo e).evtR = s.evtR := rfl
@[simp] theorem State.emit_writtenTo_evtW (s : State) (e : Event) : (s.emit .writtenTo e).evtW = s.evtW ++ [e] := rfl
@[simp] theorem State.emit_cfg (s : State) (c : Channel) (e : Event) : (s.emit c e).cfg = s.cfg := by cases c <;> rfl
@[simp] theorem State.emit_mem (s : State) (c : Channel) (e : Event) : (s.emit c e).mem = s.mem := by cases c <;> rfl
@[simp] theorem State.emit_created (s : State) (c : Channel) (e : Event) : (s.emit c e).created = s.created := by cases c <;> rfl
@[simp] theorem State.emit_dsBusy (s : State) (c : Channel) (e : Event) : (s.emit c e).dsBusy = s.dsBusy := by cases c <;> rfl
@[simp] theorem State.emit_obsR (s : State) (c : Channel) (e : Event) : (s.emit c e).obsR = s.obsR := by cases c <;> rfl
@[simp] theorem State.emit_obsW (s : State) (c : Channel) (e : Event) : (s.emit c e).obsW = s.obsW := by cases c <;> rfl
@[simp] theorem State.emit_mstate (s : State) (c : Channel) (e : Event) : (s.emit c e).mstate = s.mstate := by cases c <;> rfl
@[simp] theorem State.emit_attempts (s : State) (c : Channel) (e : Event) : (s.emit c e).attempts = s.attempts := by cases c <;> rfl
@[simp] theorem State.emit_req (s : State) (c : Channel) (e : Event) : (s.emit c e).req = s.req := by cases c <;> rfl
@[simp] theorem State.emit_tid (s : State) (c : Channel) (e : Event) : (s.emit c e).tid = s.tid := by cases c <;> rfl
@[simp] theorem State.emit_mtrace (s : State) (c : Channel) (e : Event) : (s.emit c e).mtrace = s.mtrace := by cases c <;> rfl
@[simp] theorem State.emit_pending (s : State) (c : Channel) (e : Event) : (s.emit c e).pending = s.pending := by cases c <;> rfl
@[simp] theorem State.emit_masterRx (s : State) (c : Channel) (e : Event) : (s.emit c e).masterRx = s.masterRx := by cases c <;> rfl
@[simp] theorem State.emit_masterTx (s : State) (c : Channel) (e : Event) : (s.emit c e).masterTx = s.masterTx := by cases c <;> rfl
@[simp] theorem State.emit_slaveTx (s : State) (c : Channel) (e : Event) : (s.emit c e).slaveTx = s.slaveTx := by cases c <;> rfl
@[simp] theorem State.emit_rsp (s : State) (c : Channel) (e : Event) : (s.emit c e).rsp = s.rsp := by cases c <;> rfl
@[simp] theorem State.emit_freeCtr (s : State) (c : Channel) (e : Event) : (s.emit c e).freeCtr = s.freeCtr := by cases c <;> rfl

/-! ### State.settle -/

@[simp] theorem State.settle_ok (s : State) (v : Value) : s.settle (.ok v) = s.answer (.ok v) := rfl
@[simp] theorem State.settle_error (s : State) (e : Error) : s.settle (.error e) = s.raise e := rfl

/-- Whatever a pure operation comes to, only the response port changes. -/
theorem State.settle_eq (s : State) (r : Except Error Value) :
    ∃ x, s.settle r = s.answer x := by
  cases r with
  | ok v => exact ⟨_, rfl⟩
  | error e => exact ⟨_, rfl⟩

/-- An error is an answer like any other (60_exceptions.md R305). -/
theorem State.raise_eq (s : State) (e : Error) : s.raise e = s.answer (.error e) := rfl

/-! ### finish -/

@[simp] theorem finish_ok (s : State) : finish (.ok s) = .next s := rfl
@[simp] theorem finish_error (r : Refusal) : finish (.error r) = .refused r := rfl

theorem finish_eq_next {r : Except Refusal State} {s : State} : finish r = .next s ↔ r = .ok s := by
  cases r <;> simp [finish]

end Sys2Proof.Machine
end

