-- ==== Sys2Proof/Laws/Memory.lean ====
section
/-! SUPPORT. Slices and banks: what a read gives, what a write leaves, and that every memory operation keeps the
canonical form (10_state.md R22, R23; 20_memory.md R53 to R56). -/

namespace Sys2Proof.Machine

/-! ### Slices -/

theorem overwrite_length {α : Type} {l vs : List α} {i : Nat} (h : i + vs.length ≤ l.length) :
    (overwrite l i vs).length = l.length := by
  simp [overwrite]; omega

theorem slice_length {α : Type} {l : List α} {i n : Nat} (h : i + n ≤ l.length) : (slice l i n).length = n := by
  simp [slice]; omega

theorem slice_getElem? {α : Type} (l : List α) (i n k : Nat) :
    (slice l i n)[k]? = if k < n then l[i + k]? else none := by
  simp [slice, List.getElem?_take]

/-- One element after an overwrite: the new value inside the slice, the old one outside it. -/
theorem overwrite_getElem? {α : Type} {l vs : List α} {i : Nat} (h : i + vs.length ≤ l.length) (k : Nat) :
    (overwrite l i vs)[k]? = if i ≤ k ∧ k < i + vs.length then vs[k - i]? else l[k]? := by
  have hi : (l.take i).length = i := by simp; omega
  rw [overwrite, List.append_assoc, List.getElem?_append, hi]
  by_cases h1 : k < i
  · rw [if_pos h1, if_neg (by omega), List.getElem?_take, if_pos h1]
  · rw [if_neg h1, List.getElem?_append]
    by_cases h2 : k - i < vs.length
    · rw [if_pos h2, if_pos (by omega)]
    · rw [if_neg h2, if_neg (by omega), List.getElem?_drop]
      congr 1; omega

/-- A slice read back after it was written. -/
theorem slice_overwrite {α : Type} {l vs : List α} {i : Nat} (h : i + vs.length ≤ l.length) :
    slice (overwrite l i vs) i vs.length = vs := by
  have hi : (l.take i).length = i := by simp; omega
  rw [slice, overwrite, List.append_assoc, List.drop_append_of_le_length (by omega),
    List.drop_of_length_le (by omega)]
  simp

theorem overwrite_head? {α : Type} {l vs : List α} {i : Nat} (hi : 0 < i) :
    (overwrite l i vs).head? = l.head? ∨ l = [] := by
  cases l with
  | nil => exact .inr rfl
  | cons x xs =>
    obtain ⟨j, rfl⟩ : ∃ j, i = j + 1 := ⟨i - 1, by omega⟩
    exact .inl (by simp [overwrite])

theorem overwrite_head?_some {α : Type} {l vs : List α} {i : Nat} {x : α} (hi : 0 < i) (h : l.head? = some x) :
    (overwrite l i vs).head? = some x := by
  rcases overwrite_head? (l := l) (vs := vs) hi with e | e
  · rw [e, h]
  · simp [e] at h

/-! ### Banks -/

@[simp] theorem addressToIndex_eq (a : Nat) : addressToIndex a = a + 1 := rfl

theorem outOfRange_eq_false {len start count : Nat} :
    outOfRange len start count = false ↔ start + 1 + count ≤ len := by
  simp [outOfRange]; omega

theorem outOfRange_eq_true {len start count : Nat} :
    outOfRange len start count = true ↔ len < start + 1 + count := by
  simp [outOfRange]; omega

theorem Memory.len_pos {m : Memory} (h : m.wf) (b : Bank) : 1 ≤ m.len b := by
  obtain ⟨h1, h2, h3, h4⟩ := h
  cases b <;> simp only [Memory.len, Memory.bank, Values.length]
  · exact List.length_pos_of_ne_nil (by rintro e; simp [e] at h1)
  · exact List.length_pos_of_ne_nil (by rintro e; simp [e] at h2)
  · exact List.length_pos_of_ne_nil (by rintro e; simp [e] at h3)
  · exact List.length_pos_of_ne_nil (by rintro e; simp [e] at h4)

theorem Memory.read_length {m : Memory} {b : Bank} {i n : Nat} (h : i + n ≤ m.len b) :
    (m.read b i n).length = n := by
  cases b <;> exact slice_length h

theorem Memory.read_fits (m : Memory) (b : Bank) (i n : Nat) : (m.read b i n).fits b = true := by
  cases b <;> rfl

/-- One element of a slice is the bank's element at the slice's place. -/
theorem Memory.read_elem? {m : Memory} {b : Bank} {i n k : Nat} (h : k < n) :
    (m.read b i n).elem? k = m.elem? b (i + k) := by
  cases b <;> simp [Memory.read, Memory.elem?, Memory.bank, Values.elem?, slice_getElem?, h]

/-- A write keeps every length, within the bounds rule. -/
theorem Memory.write_len {m : Memory} {b : Bank} {i : Nat} {vs : Values} (h : i + vs.length ≤ m.len b) (c : Bank) :
    (m.write b i vs).len c = m.len c := by
  cases b <;> cases vs <;> cases c <;>
    first | rfl | exact overwrite_length h

/-- One element after a write: the new value inside the slice of the bank written, the old one elsewhere. -/
theorem Memory.write_elem? {m : Memory} {b : Bank} {i : Nat} {vs : Values} (hf : vs.fits b = true)
    (h : i + vs.length ≤ m.len b) (c : Bank) (k : Nat) :
    (m.write b i vs).elem? c k =
      if c = b ∧ i ≤ k ∧ k < i + vs.length then vs.elem? (k - i) else m.elem? c k := by
  (cases b <;> cases vs) <;> simp [Values.fits] at hf
  all_goals
    cases c <;>
      simp [Memory.write, Memory.elem?, Memory.bank, Values.elem?, Values.length, overwrite_getElem? h,
        apply_ite (Option.map _)]

theorem Memory.write_wf {m : Memory} (h : m.wf) (b : Bank) {i : Nat} (hi : 0 < i) (vs : Values) :
    (m.write b i vs).wf := by
  obtain ⟨h1, h2, h3, h4⟩ := h
  cases b <;> cases vs <;>
    first
      | exact ⟨h1, h2, h3, h4⟩
      | exact ⟨overwrite_head?_some hi h1, h2, h3, h4⟩
      | exact ⟨h1, overwrite_head?_some hi h2, h3, h4⟩
      | exact ⟨h1, h2, overwrite_head?_some hi h3, h4⟩
      | exact ⟨h1, h2, h3, overwrite_head?_some hi h4⟩

theorem Memory.grow_len {m : Memory} {b : Bank} {vs : Values} (hf : vs.fits b = true) (c : Bank) :
    (m.grow b vs).len c = if c = b then m.len c + vs.length else m.len c := by
  (cases b <;> cases vs) <;> simp [Values.fits] at hf
  all_goals cases c <;> simp [Memory.grow, Memory.len, Memory.bank, Values.length]

theorem Memory.grow_wf {m : Memory} (h : m.wf) (b : Bank) (vs : Values) : (m.grow b vs).wf := by
  obtain ⟨h1, h2, h3, h4⟩ := h
  cases b <;> cases vs <;>
    simp [Memory.grow, Memory.wf, List.head?_append, h1, h2, h3, h4]

theorem Memory.create_wf (c : Cfg) : (Memory.create c).wf := ⟨rfl, rfl, rfl, rfl⟩

theorem Memory.load_wf (cd id : List Bool) (hr ir : List Word) : (Memory.load cd id hr ir).wf :=
  ⟨rfl, rfl, rfl, rfl⟩

theorem State.resetWith_mem_wf (c : Cfg) : (State.resetWith c).mem.wf := Memory.create_wf c

theorem State.beforeCreation_mem_wf (c : Cfg) : (State.beforeCreation c).mem.wf := ⟨rfl, rfl, rfl, rfl⟩

end Sys2Proof.Machine
end

