-- ==== Sys2Proof/Laws/Ops.lean ====
section
/-! SUPPORT. One lemma for each shared operation of the DataStore, the slave datapath and the Master that says once
everything it can do. -/

namespace Sys2Proof.Machine

/-! ### The store's guard -/

theorem storeGuard_ready {s : State} (h : s.StoreReady) : storeGuard s = .ok () := by
  simp [storeGuard, h.1, h.2]

theorem storeGuard_eq_ok {s : State} : storeGuard s = .ok () ↔ s.StoreReady := by
  unfold storeGuard State.StoreReady
  cases s.created <;> cases s.dsBusy <;> simp

theorem storeGuard_bind {α : Type} {s : State} {k : Except Refusal α} {x : α}
    (h : (storeGuard s >>= fun _ => k) = .ok x) : s.StoreReady ∧ k = .ok x := by
  cases hg : storeGuard s with
  | error e => rw [hg] at h; cases h
  | ok u => rw [hg] at h; exact ⟨storeGuard_eq_ok.1 hg, h⟩

theorem storeGuard_bind_ready {α : Type} {s : State} (k : Except Refusal α) (h : s.StoreReady) :
    (storeGuard s >>= fun _ => k) = k := by
  rw [storeGuard_ready h]; rfl

/-! ### The DataStore operations -/

/-- The state after a successful `DS.READ` (R131), before its result. -/
abbrev readState (b : Bank) (start count : Nat) (s : State) : State :=
  (s.acquire.emit .readFrom ⟨kindOf b, start, s.mem.read b (start + 1) count⟩).release

/-- The state after a successful `DS.WRITE` (R132), before its result. -/
abbrev writeState (b : Bank) (start : Nat) (vs : Values) (s : State) : State :=
  ((s.acquire.setMem (s.mem.write b (start + 1) vs)).emit .writtenTo ⟨kindOf b, start, vs⟩).release

theorem dsRead_inRange {b : Bank} {start count : Nat} {s : State} (h : start + 1 + count ≤ s.mem.len b) :
    dsRead b start count s = (readState b start count s, .ok (s.mem.read b (start + 1) count)) := by
  rw [dsRead, if_neg (by rw [outOfRange_eq_false.2 h]; simp)]; rfl

theorem dsRead_outOfRange {b : Bank} {start count : Nat} {s : State} (h : s.mem.len b < start + 1 + count) :
    dsRead b start count s = (s, .error (.outOfRange b start count)) := by
  rw [dsRead, if_pos (outOfRange_eq_true.2 h)]

theorem dsWrite_inRange {b : Bank} {start : Nat} {vs : Values} {s : State}
    (h : start + 1 + vs.length ≤ s.mem.len b) :
    dsWrite b start vs s = (writeState b start vs s, .ok ()) := by
  rw [dsWrite, if_neg (by rw [outOfRange_eq_false.2 h]; simp)]; rfl

theorem dsWrite_outOfRange {b : Bank} {start : Nat} {vs : Values} {s : State}
    (h : s.mem.len b < start + 1 + vs.length) :
    dsWrite b start vs s = (s, .error (.outOfRange b start vs.length)) := by
  rw [dsWrite, if_pos (outOfRange_eq_true.2 h)]

/-- Where DS_BUSY is false, a read changes the read-from stream alone. -/
theorem readState_eq {b : Bank} {start count : Nat} {s : State} (h : s.dsBusy = false) :
    readState b start count s
      = { s with evtR := s.evtR ++ [⟨kindOf b, start, s.mem.read b (start + 1) count⟩] } := by
  obtain ⟨⟩ := s
  simp_all [readState, State.acquire, State.emit, State.release]

/-- Where DS_BUSY is false, a write changes its bank and the written-to stream alone. -/
theorem writeState_eq {b : Bank} {start : Nat} {vs : Values} {s : State} (h : s.dsBusy = false) :
    writeState b start vs s
      = { s with mem := s.mem.write b (start + 1) vs, evtW := s.evtW ++ [⟨kindOf b, start, vs⟩] } := by
  obtain ⟨⟩ := s
  simp_all [writeState, State.acquire, State.emit, State.release, State.setMem]

/-! ### What a request can do to the store -/

/-- The store operation of one request: none, one successful read, or one successful write (20_memory.md R69). -/
inductive StoreStep (s : State) : State → Prop where
  | none : StoreStep s s
  | read (b : Bank) (start count : Nat) (ready : s.StoreReady) (inRange : start + 1 + count ≤ s.mem.len b) :
    StoreStep s (readState b start count s)
  | write (b : Bank) (start : Nat) (vs : Values) (ready : s.StoreReady) (fits : vs.fits b = true)
    (wire : b = .cd ∨ b = .hr) (inRange : start + 1 + vs.length ≤ s.mem.len b) :
    StoreStep s (writeState b start vs s)

/-- What a read request at the slave can do (R241 to R245). -/
theorem slaveRead_cases {f : FuncCode} {b : Bank} {start q : Word} {s s' : State} {r : Option (List Byte)}
    (h : slaveRead f b start q s = .ok (s', r)) :
    (quantityAllowed s.cfg f q.toNat = false ∧ s' = s ∧ r = exceptionReply f.toByte s.cfg.excIllegalDataValue) ∨
    (quantityAllowed s.cfg f q.toNat = true ∧ s.StoreReady ∧ s.mem.len b < start.toNat + 1 + q.toNat ∧ s' = s ∧
      r = exceptionReply f.toByte s.cfg.excIllegalDataAddress) ∨
    (quantityAllowed s.cfg f q.toNat = true ∧ s.StoreReady ∧ start.toNat + 1 + q.toNat ≤ s.mem.len b ∧
      s' = readState b start.toNat q.toNat s ∧
      ∃ m, readResponse f (s.mem.read b (start.toNat + 1) q.toNat) = some m ∧ m.wf = true ∧
        r = some (encodeResponse m)) := by
  unfold slaveRead at h
  split at h
  · next hq => cases h; exact .inl ⟨hq, rfl, rfl⟩
  · next hq =>
    have hq : quantityAllowed s.cfg f q.toNat = true := by simpa using hq
    obtain ⟨hr, h⟩ := storeGuard_bind h
    by_cases hb : start.toNat + 1 + q.toNat ≤ s.mem.len b
    · rw [dsRead_inRange hb] at h
      simp only at h
      split at h
      · cases h
      · next m hm =>
        split at h
        · next hw => cases h; exact .inr (.inr ⟨hq, hr, hb, rfl, m, hm, hw, rfl⟩)
        · cases h
    · rw [dsRead_outOfRange (by omega)] at h
      cases h
      exact .inr (.inl ⟨hq, hr, by omega, rfl, rfl⟩)

/-- What a write request at the slave can do (R241, R246 to R249). -/
theorem slaveWrite_cases {f : FuncCode} {b : Bank} {start : Word} {vs : Values} {m : Response} {s s' : State}
    {r : Option (List Byte)} (h : slaveWrite f b start vs m s = .ok (s', r)) :
    (quantityAllowed s.cfg f vs.length = false ∧ s' = s ∧ r = exceptionReply f.toByte s.cfg.excIllegalDataValue) ∨
    (quantityAllowed s.cfg f vs.length = true ∧ s.StoreReady ∧ s.mem.len b < start.toNat + 1 + vs.length ∧ s' = s ∧
      r = exceptionReply f.toByte s.cfg.excIllegalDataAddress) ∨
    (quantityAllowed s.cfg f vs.length = true ∧ s.StoreReady ∧ start.toNat + 1 + vs.length ≤ s.mem.len b ∧
      s' = writeState b start.toNat vs s ∧ r = some (encodeResponse m)) := by
  unfold slaveWrite at h
  split at h
  · next hq => cases h; exact .inl ⟨hq, rfl, rfl⟩
  · next hq =>
    have hq : quantityAllowed s.cfg f vs.length = true := by simpa using hq
    obtain ⟨hr, h⟩ := storeGuard_bind h
    by_cases hb : start.toNat + 1 + vs.length ≤ s.mem.len b
    · rw [dsWrite_inRange hb] at h
      cases h
      exact .inr (.inr ⟨hq, hr, hb, rfl, rfl⟩)
    · rw [dsWrite_outOfRange (by omega)] at h
      cases h
      exact .inr (.inl ⟨hq, hr, by omega, rfl, rfl⟩)

theorem slaveRead_storeStep {f : FuncCode} {b : Bank} {start q : Word} {s s' : State} {r : Option (List Byte)}
    (h : slaveRead f b start q s = .ok (s', r)) : StoreStep s s' := by
  rcases slaveRead_cases h with ⟨-, rfl, -⟩ | ⟨-, -, -, rfl, -⟩ | ⟨-, hr, hb, rfl, -⟩
  · exact .none
  · exact .none
  · exact .read _ _ _ hr hb

theorem slaveWrite_storeStep {f : FuncCode} {b : Bank} {start : Word} {vs : Values} {m : Response} {s s' : State}
    {r : Option (List Byte)} (hf : vs.fits b = true) (hb : b = .cd ∨ b = .hr)
    (h : slaveWrite f b start vs m s = .ok (s', r)) : StoreStep s s' := by
  rcases slaveWrite_cases h with ⟨-, rfl, -⟩ | ⟨-, -, -, rfl, -⟩ | ⟨-, hr, hi, rfl, -⟩
  · exact .none
  · exact .none
  · exact .write _ _ _ hr hf hb hi

/-- A decoded request performs at most one store operation (R241). -/
theorem slaveRequest_storeStep {m : Request} {s s' : State} {r : Option (List Byte)}
    (h : slaveRequest m s = .ok (s', r)) : StoreStep s s' := by
  cases m with
  | readCoils => exact slaveRead_storeStep h
  | readDiscreteInputs => exact slaveRead_storeStep h
  | readHoldingRegisters => exact slaveRead_storeStep h
  | readInputRegisters => exact slaveRead_storeStep h
  | writeSingleCoil a v =>
    exact slaveWrite_storeStep (f := .writeSingleCoil) (start := a) (vs := .bits [v]) rfl (.inl rfl) h
  | writeSingleRegister a v =>
    exact slaveWrite_storeStep (f := .writeSingleRegister) (start := a) (vs := .regs [v]) rfl (.inr rfl) h
  | writeMultipleCoils =>
    simp only [slaveRequest, slaveWriteMultipleCoils] at h
    split at h
    · cases h
    · exact slaveWrite_storeStep rfl (.inl rfl) h
  | writeMultipleRegisters =>
    simp only [slaveRequest, slaveWriteMultipleRegisters] at h
    split at h
    · cases h
    · exact slaveWrite_storeStep rfl (.inr rfl) h

/-- A request PDU that is rejected changes nothing (R251, R252). -/
theorem slaveRejected_state {pdu : List Byte} {e : FormatReason} {s s' : State} {r : Option (List Byte)}
    (h : slaveRejected pdu e s = .ok (s', r)) : s' = s := by
  have hm : ∀ fc, slaveMalformed fc s = .ok (s', r) → s' = s := by
    intro fc h
    unfold slaveMalformed at h
    split at h <;> cases h <;> rfl
  cases e with
  | empty => cases h
  | function fc => cases h; rfl
  | coilValue v => cases h; rfl
  | length => exact hm _ h
  | byteCount => exact hm _ h
  | protocol => exact hm _ h
  | unit a g => exact hm _ h

/-- `SLAVE.EXEC` performs at most one store operation (R241). -/
theorem slaveExec_storeStep {pdu : List Byte} {s s' : State} {r : Option (List Byte)}
    (h : slaveExec pdu s = .ok (s', r)) : StoreStep s s' := by
  unfold slaveExec at h
  split at h
  · exact slaveRequest_storeStep h
  · rw [slaveRejected_state h]; exact .none

/-- What the reply path of `SLAVE.STEP` can do (R240). -/
theorem slaveReply_cases {tid : Word} {unit : Byte} {s s' : State} {rsp r : Option (List Byte)}
    (h : slaveReply tid unit s rsp = .ok (s', r)) :
    (rsp = none ∧ s' = s ∧ r = none) ∨
    (∃ p w, rsp = some p ∧ frameBy s.cfg tid unit p = .ok w ∧ s' = s.slaveWrite w ∧ r = some w) := by
  unfold slaveReply at h
  split at h
  · cases h; exact .inl ⟨rfl, rfl, rfl⟩
  · next p =>
    split at h
    · cases h
    · next w hw => cases h; exact .inr ⟨p, w, rfl, hw, rfl, rfl⟩

/-- What `SLAVE.STEP` can do (R240): nothing, or one `SLAVE.EXEC` and its reply. -/
theorem slaveStep_cases {wire : List Byte} {s s' : State} {r : Option (List Byte)}
    (h : slaveStep wire s = .ok (s', r)) :
    (s' = s ∧ r = none ∧ ((∃ e, unframeBy s.cfg wire = .error e) ∨
      ∃ tid unit pdu, unframeBy s.cfg wire = .ok (tid, unit, pdu) ∧ unitAccepted s.cfg unit = false)) ∨
    (∃ tid unit pdu s1 rsp, unframeBy s.cfg wire = .ok (tid, unit, pdu) ∧ unitAccepted s.cfg unit = true ∧
      slaveExec pdu s = .ok (s1, rsp) ∧ slaveReply tid unit s1 rsp = .ok (s', r)) := by
  unfold slaveStep at h
  split at h
  · cases h
  · split at h
    · next e he => cases h; exact .inl ⟨rfl, rfl, .inl ⟨e, he⟩⟩
    · next tid unit pdu hu =>
      split at h
      · next hf => cases h; exact .inl ⟨rfl, rfl, .inr ⟨tid, unit, pdu, hu, hf⟩⟩
      · next hf =>
        split at h
        · cases h
        · next s1 rsp he => exact .inr ⟨tid, unit, pdu, s1, rsp, hu, by simpa using hf, he, h⟩

/-- An answer of the slave ends in a next state exactly when it is one. -/
theorem answerSlave_eq_next {f : State → SlaveAnswer} {s s' : State} :
    answerSlave f s = .next s' ↔
      s.created = true ∧ ∃ s1 rsp, f s = .ok (s1, rsp) ∧ s' = s1.answer (.ok (.reply rsp)) := by
  unfold answerSlave
  cases s.created <;> rcases f s with e | ⟨s1, rsp⟩ <;> simp [eq_comm]

/-- Before the store exists the slave answers nothing (70_reset_and_hazards.md R334). -/
theorem answerSlave_notCreated {f : State → SlaveAnswer} {s : State} (h : s.created = false) :
    answerSlave f s = .refused .storeNotCreated := by simp [answerSlave, h]

/-! ### What waits for the store -/

/-- `OBS.SUBSCRIBE` ends in a next state exactly when the store exists, with one observer more (R136). -/
theorem execObsSubscribe_eq_next {c : Channel} {o : Nat} {s s' : State} :
    execObsSubscribe c o s = .next s' ↔ s.created = true ∧ s' = (match c with
      | .readFrom => { s with obsR := insertObserver o s.obsR }
      | .writtenTo => { s with obsW := insertObserver o s.obsW }).answer (.ok .unit) := by
  unfold execObsSubscribe
  cases s.created <;> cases c <;> simp [eq_comm]

/-! ### The Master -/

/-- `MASTER.EXECUTE` ends in a next state only from Idle, on a store that exists, with a frame that can be sent
(R272, R276, R334). -/
theorem execMasterExecute_eq_next {unit : Byte} {m : Request} {s s' : State}
    (h : execMasterExecute unit m s = .next s') :
    s.mstate = .idle ∧ s.created = true ∧ m.wf = true ∧
    ∃ wire, frameBy s.cfg s.nextTid unit (encodeRequest m) = .ok wire ∧
      s' = masterLoop wire unit m.expect s.cfg.retries (s.masterBegin m) := by
  unfold execMasterExecute at h
  split at h
  · cases h
  · split at h
    · cases h
    · split at h
      · cases h
      · next hi hc hw =>
        split at h
        · cases h
        · next wire hf =>
          cases h
          exact ⟨by simpa using hi, by simpa using hc, by simpa using hw, wire, hf, rfl⟩

/-- What keeps one attempt of the Master apart from the rest of the state (R271): it touches the Master's own state
and its byte-transport alone. -/
structure MasterFrame (s s' : State) : Prop where
  cfg : s'.cfg = s.cfg
  mem : s'.mem = s.mem
  created : s'.created = s.created
  dsBusy : s'.dsBusy = s.dsBusy
  obsR : s'.obsR = s.obsR
  obsW : s'.obsW = s.obsW
  evtR : s'.evtR = s.evtR
  evtW : s'.evtW = s.evtW
  tid : s'.tid = s.tid
  pending : s'.pending = s.pending
  slaveTx : s'.slaveTx = s.slaveTx
  freeCtr : s'.freeCtr = s.freeCtr

theorem MasterFrame.trans {s t u : State} (h : MasterFrame s t) (k : MasterFrame t u) : MasterFrame s u := by
  obtain ⟨h1, h2, h3, h4, h5, h6, h7, h8, h9, h10, h11, h12⟩ := h
  obtain ⟨k1, k2, k3, k4, k5, k6, k7, k8, k9, k10, k11, k12⟩ := k
  exact ⟨k1.trans h1, k2.trans h2, k3.trans h3, k4.trans h4, k5.trans h5, k6.trans h6, k7.trans h7, k8.trans h8,
    k9.trans h9, k10.trans h10, k11.trans h11, k12.trans h12⟩

/-- One attempt sends one frame and counts it (R271). -/
theorem masterAttempt_spec (wire : List Byte) (unit : Byte) (expect : Expect) (s : State) :
    MasterFrame s (masterAttempt wire unit expect s).2 ∧
    (masterAttempt wire unit expect s).2.masterTx = s.masterTx ++ [wire] ∧
    (masterAttempt wire unit expect s).2.attempts = s.attempts + 1 ∧
    (masterAttempt wire unit expect s).2.req = s.req ∧
    (masterAttempt wire unit expect s).2.masterRx = s.masterRx.drop 1 := by
  obtain ⟨⟩ := s
  rename_i rx _ _ _ _
  rcases rx with _ | ⟨_ | _, rest⟩ <;>
    exact ⟨⟨rfl, rfl, rfl, rfl, rfl, rfl, rfl, rfl, rfl, rfl, rfl, rfl⟩, rfl, rfl, rfl, rfl⟩

end Sys2Proof.Machine
end

