-- ==== Sys2Proof/Laws/PerInstr.lean ====
section
/-! SUPPORT. The family OpcodeRow: what a well-formed instruction is encoded to lies in the space of its row of
spec/opcode_table.json, and its first byte agrees with the row's match under the row's mask. -/

namespace Sys2Proof

/-- The three encoding spaces of the opcode table (30_encoding.md R86, R103). -/
inductive Space where
  | request
  | response
  | command
  deriving DecidableEq, Repr

/-- The space something presented belongs to, and its first byte. -/
def Offer.firstByte? : Offer → Option (Space × Byte)
  | .request (b :: _) => some (.request, b)
  | .response (b :: _) _ => some (.response, b)
  | .command c _ => some (.command, c)
  | .request [] => none
  | .response [] _ => none

/-- The row of an instruction in spec/opcode_table.json: its space, its match and its mask. -/
def Instr.row : Instr → Space × Byte × Byte
  | .reqReadCoils _ _ => (.request, 0x01, 0xFF)
  | .reqReadDiscreteInputs _ _ => (.request, 0x02, 0xFF)
  | .reqReadHoldingRegisters _ _ => (.request, 0x03, 0xFF)
  | .reqReadInputRegisters _ _ => (.request, 0x04, 0xFF)
  | .reqWriteSingleCoil _ _ => (.request, 0x05, 0xFF)
  | .reqWriteSingleRegister _ _ => (.request, 0x06, 0xFF)
  | .reqWriteMultipleCoils _ _ => (.request, 0x0F, 0xFF)
  | .reqWriteMultipleRegisters _ _ => (.request, 0x10, 0xFF)
  | .rspReadCoils _ _ => (.response, 0x01, 0xFF)
  | .rspReadDiscreteInputs _ _ => (.response, 0x02, 0xFF)
  | .rspReadHoldingRegisters _ _ => (.response, 0x03, 0xFF)
  | .rspReadInputRegisters _ _ => (.response, 0x04, 0xFF)
  | .rspWriteSingleCoil _ _ _ => (.response, 0x05, 0xFF)
  | .rspWriteSingleRegister _ _ _ => (.response, 0x06, 0xFF)
  | .rspWriteMultipleCoils _ _ _ => (.response, 0x0F, 0xFF)
  | .rspWriteMultipleRegisters _ _ _ => (.response, 0x10, 0xFF)
  | .rspException _ _ => (.response, 0x80, 0x80)
  | .reqUnsupported _ => (.request, 0x00, 0x00)
  | .crc16 _ => (.command, 0x00, 0xFF)
  | .lrc _ => (.command, 0x01, 0xFF)
  | .rtuFrame _ _ => (.command, 0x10, 0xFF)
  | .rtuUnframe _ => (.command, 0x11, 0xFF)
  | .ascFrame _ _ => (.command, 0x12, 0xFF)
  | .ascUnframe _ => (.command, 0x13, 0xFF)
  | .mbapFrame _ _ _ => (.command, 0x14, 0xFF)
  | .mbapUnframe _ => (.command, 0x15, 0xFF)
  | .rspCheckExc _ => (.command, 0x16, 0xFF)
  | .pduEncReq _ => (.command, 0x20, 0xFF)
  | .pduDecReq _ => (.command, 0x21, 0xFF)
  | .pduEncRsp _ => (.command, 0x22, 0xFF)
  | .pduDecRsp _ _ => (.command, 0x23, 0xFF)
  | .pduEncExc _ _ => (.command, 0x24, 0xFF)
  | .dsRead _ _ _ => (.command, 0x30, 0xFF)
  | .dsWrite _ _ _ => (.command, 0x31, 0xFF)
  | .dsCreate => (.command, 0x32, 0xFF)
  | .dsLoad _ _ _ _ => (.command, 0x33, 0xFF)
  | .dsGrow _ _ => (.command, 0x34, 0xFF)
  | .obsSubscribe _ _ => (.command, 0x35, 0xFF)
  | .slaveStep _ => (.command, 0x40, 0xFF)
  | .slaveExec _ => (.command, 0x41, 0xFF)
  | .masterExecute _ _ => (.command, 0x50, 0xFF)

end Sys2Proof

namespace Sys2Proof.Laws.OpcodeRow

set_option Elab.async false

/-- The statement of the family. -/
def Statement (i : Instr) : Prop :=
  i.wf = true → ∃ b, (encode i).firstByte? = some (i.row.1, b) ∧ b &&& i.row.2.2 = i.row.2.1

theorem exceptionByte_match : ∀ fc : Byte, (fc ||| 0x80) &&& 0x80 = 0x80 := by decide +kernel

theorem reqReadCoils (start quantity : Word) : Statement (.reqReadCoils start quantity) := by
  intro _; exact ⟨_, rfl, by simp [Instr.row]⟩

theorem reqReadDiscreteInputs (start quantity : Word) : Statement (.reqReadDiscreteInputs start quantity) := by
  intro _; exact ⟨_, rfl, by simp [Instr.row]⟩

theorem reqReadHoldingRegisters (start quantity : Word) : Statement (.reqReadHoldingRegisters start quantity) := by
  intro _; exact ⟨_, rfl, by simp [Instr.row]⟩

theorem reqReadInputRegisters (start quantity : Word) : Statement (.reqReadInputRegisters start quantity) := by
  intro _; exact ⟨_, rfl, by simp [Instr.row]⟩

theorem reqWriteSingleCoil (address : Word) (value : Bool) : Statement (.reqWriteSingleCoil address value) := by
  intro _; exact ⟨_, rfl, by simp [Instr.row]⟩

theorem reqWriteSingleRegister (address value : Word) : Statement (.reqWriteSingleRegister address value) := by
  intro _; exact ⟨_, rfl, by simp [Instr.row]⟩

theorem reqWriteMultipleCoils (start : Word) (values : List Bool) : Statement (.reqWriteMultipleCoils start values) := by
  intro _; exact ⟨_, rfl, by simp [Instr.row]⟩

theorem reqWriteMultipleRegisters (start : Word) (values : List Word) : Statement (.reqWriteMultipleRegisters start values) := by
  intro _; exact ⟨_, rfl, by simp [Instr.row]⟩

theorem rspReadCoils (expect : Expect) (data : List Byte) : Statement (.rspReadCoils expect data) := by
  intro _; exact ⟨_, rfl, by simp [Instr.row]⟩

theorem rspReadDiscreteInputs (expect : Expect) (data : List Byte) : Statement (.rspReadDiscreteInputs expect data) := by
  intro _; exact ⟨_, rfl, by simp [Instr.row]⟩

theorem rspReadHoldingRegisters (expect : Expect) (values : List Word) : Statement (.rspReadHoldingRegisters expect values) := by
  intro _; exact ⟨_, rfl, by simp [Instr.row]⟩

theorem rspReadInputRegisters (expect : Expect) (values : List Word) : Statement (.rspReadInputRegisters expect values) := by
  intro _; exact ⟨_, rfl, by simp [Instr.row]⟩

theorem rspWriteSingleCoil (expect : Expect) (address : Word) (value : Bool) : Statement (.rspWriteSingleCoil expect address value) := by
  intro _; exact ⟨_, rfl, by simp [Instr.row]⟩

theorem rspWriteSingleRegister (expect : Expect) (address value : Word) : Statement (.rspWriteSingleRegister expect address value) := by
  intro _; exact ⟨_, rfl, by simp [Instr.row]⟩

theorem rspWriteMultipleCoils (expect : Expect) (start quantity : Word) : Statement (.rspWriteMultipleCoils expect start quantity) := by
  intro _; exact ⟨_, rfl, by simp [Instr.row]⟩

theorem rspWriteMultipleRegisters (expect : Expect) (start quantity : Word) : Statement (.rspWriteMultipleRegisters expect start quantity) := by
  intro _; exact ⟨_, rfl, by simp [Instr.row]⟩

theorem rspException (fc code : Byte) : Statement (.rspException fc code) := by
  intro _; exact ⟨_, rfl, exceptionByte_match fc⟩

theorem reqUnsupported (fc : Byte) : Statement (.reqUnsupported fc) := by
  intro _; exact ⟨_, rfl, by simp [Instr.row]⟩

theorem crc16 (bytes : List Byte) : Statement (.crc16 bytes) := by
  intro _; exact ⟨_, rfl, by simp [Instr.row]⟩

theorem lrc (bytes : List Byte) : Statement (.lrc bytes) := by
  intro _; exact ⟨_, rfl, by simp [Instr.row]⟩

theorem rtuFrame (unit : Byte) (pdu : List Byte) : Statement (.rtuFrame unit pdu) := by
  intro _; exact ⟨_, rfl, by simp [Instr.row]⟩

theorem rtuUnframe (wire : List Byte) : Statement (.rtuUnframe wire) := by
  intro _; exact ⟨_, rfl, by simp [Instr.row]⟩

theorem ascFrame (unit : Byte) (pdu : List Byte) : Statement (.ascFrame unit pdu) := by
  intro _; exact ⟨_, rfl, by simp [Instr.row]⟩

theorem ascUnframe (wire : List Byte) : Statement (.ascUnframe wire) := by
  intro _; exact ⟨_, rfl, by simp [Instr.row]⟩

theorem mbapFrame (tid : Word) (unit : Byte) (pdu : List Byte) : Statement (.mbapFrame tid unit pdu) := by
  intro _; exact ⟨_, rfl, by simp [Instr.row]⟩

theorem mbapUnframe (wire : List Byte) : Statement (.mbapUnframe wire) := by
  intro _; exact ⟨_, rfl, by simp [Instr.row]⟩

theorem rspCheckExc (pdu : List Byte) : Statement (.rspCheckExc pdu) := by
  intro _; exact ⟨_, rfl, by simp [Instr.row]⟩

theorem pduEncReq (m : Request) : Statement (.pduEncReq m) := by
  intro _; exact ⟨_, rfl, by simp [Instr.row]⟩

theorem pduDecReq (bytes : List Byte) : Statement (.pduDecReq bytes) := by
  intro _; exact ⟨_, rfl, by simp [Instr.row]⟩

theorem pduEncRsp (m : Response) : Statement (.pduEncRsp m) := by
  intro _; exact ⟨_, rfl, by simp [Instr.row]⟩

theorem pduDecRsp (bytes : List Byte) (expect : Expect) : Statement (.pduDecRsp bytes expect) := by
  intro _; exact ⟨_, rfl, by simp [Instr.row]⟩

theorem pduEncExc (fc code : Byte) : Statement (.pduEncExc fc code) := by
  intro _; exact ⟨_, rfl, by simp [Instr.row]⟩

theorem dsRead (bank : Bank) (start count : Nat) : Statement (.dsRead bank start count) := by
  intro _; exact ⟨_, rfl, by simp [Instr.row]⟩

theorem dsWrite (bank : Bank) (start : Nat) (values : Values) : Statement (.dsWrite bank start values) := by
  intro _; exact ⟨_, rfl, by simp [Instr.row]⟩

theorem dsCreate : Statement .dsCreate := by
  intro _; exact ⟨_, rfl, by simp [Instr.row]⟩

theorem dsLoad (cd id : List Bool) (hr ir : List Word) : Statement (.dsLoad cd id hr ir) := by
  intro _; exact ⟨_, rfl, by simp [Instr.row]⟩

theorem dsGrow (bank : Bank) (values : Values) : Statement (.dsGrow bank values) := by
  intro _; exact ⟨_, rfl, by simp [Instr.row]⟩

theorem obsSubscribe (channel : Channel) (observer : Nat) : Statement (.obsSubscribe channel observer) := by
  intro _; exact ⟨_, rfl, by simp [Instr.row]⟩

theorem slaveStep (wire : List Byte) : Statement (.slaveStep wire) := by
  intro _; exact ⟨_, rfl, by simp [Instr.row]⟩

theorem slaveExec (pdu : List Byte) : Statement (.slaveExec pdu) := by
  intro _; exact ⟨_, rfl, by simp [Instr.row]⟩

theorem masterExecute (unit : Byte) (request : Request) : Statement (.masterExecute unit request) := by
  intro _; exact ⟨_, rfl, by simp [Instr.row]⟩

end Sys2Proof.Laws.OpcodeRow
end

