-- ==== Sys2Proof/Laws/Step.lean ====
section
/-! SUPPORT. What one step can do, said once. -/

namespace Sys2Proof.Machine

theorem step_nil {s : State} (h : s.pending = []) : step s = .next s := by
  simp [step, State.fetch, h]

theorem step_cons {s : State} {o : Offer} {rest : List Offer} (h : s.pending = o :: rest) :
    step s = match decode o with
      | .ok i => exec i { s with pending := rest }
      | .error e => rejectOffer o e { s with pending := rest } := by
  have hf : s.fetch = some (o, { s with pending := rest }) := by simp [State.fetch, h]
  cases hd : decode o <;> simp [step, hf, hd]

/-- A step that answers a next state idled, ran the decoded instruction, or rejected what was presented. -/
theorem step_cases {s s' : State} (h : step s = .next s') :
    (s.pending = [] ∧ s' = s) ∨
    ∃ o rest, s.pending = o :: rest ∧
      ((∃ i, decode o = .ok i ∧ exec i { s with pending := rest } = .next s') ∨
       (∃ e, decode o = .error e ∧ rejectOffer o e { s with pending := rest } = .next s')) := by
  cases hp : s.pending with
  | nil => rw [step_nil hp] at h; cases h; exact .inl ⟨rfl, rfl⟩
  | cons o rest =>
    rw [step_cons hp] at h
    refine .inr ⟨o, rest, rfl, ?_⟩
    cases hd : decode o with
    | ok i => rw [hd] at h; exact .inl ⟨i, rfl, h⟩
    | error e => rw [hd] at h; exact .inr ⟨e, rfl, h⟩

/-- What is rejected is answered by the slave, or reported on the response port. -/
theorem rejectOffer_cases {o : Offer} {e : DecodeError} {s s' : State} (h : rejectOffer o e s = .next s') :
    (∃ pdu, ∃ f : State → SlaveAnswer, (f = slaveExec pdu ∨ ∃ r, f = slaveRejected pdu r) ∧
      answerSlave f s = .next s') ∨
    (∃ r, s' = s.settle r) := by
  unfold rejectOffer at h
  split at h
  · next pdu r => exact .inl ⟨pdu, _, .inr ⟨r, rfl⟩, h⟩
  · cases h; exact .inr ⟨_, rfl⟩
  · cases h
  · cases h
  · next pdu _ _ => exact .inl ⟨pdu, _, .inl rfl, h⟩

end Sys2Proof.Machine
end

