-- ==== Sys2Proof/Tests/Slice0.lean ====
section
/-! SUPPORT. Tests of one decoding or one step each, and for each statement of Obligations.lean with hypotheses a witness
that meets them. Expected values: the vectors of 95_test_vectors.md (its section is named), the examples inside the
rules named, or bytes written out from the formats of 30_encoding.md. -/

namespace Sys2Proof.Tests

open Sys2Proof.Machine

set_option Elab.async false

/-! ## Helpers -/

/-- The reset state with other banks, given behind their sentinels. -/
def store (cd id : List Bool) (hr ir : List Word) : State := { State.reset with mem := Memory.load cd id hr ir }

/-- The reset state under another configuration. -/
def withCfg (f : Cfg → Cfg) : State := { State.reset with cfg := f State.reset.cfg }

/-- An outcome is a next state with a property. -/
def nextIs (o : Host.Outcome State Fault Refusal) (p : State → Bool) : Bool :=
  match o with
  | .next s => p s
  | .fault _ => false
  | .refused _ => false

/-- An outcome is a refusal for a reason. -/
def refusedIs (o : Host.Outcome State Fault Refusal) (r : Refusal) : Bool :=
  match o with
  | .next _ => false
  | .fault _ => false
  | .refused r' => r' == r

/-- An outcome is a next state with a value on the response port. -/
def answers (o : Host.Outcome State Fault Refusal) (v : Value) : Bool := nextIs o fun s => s.rsp == some (.ok v)

/-- An outcome is a next state with an error on the response port. -/
def raises (o : Host.Outcome State Fault Refusal) (e : Error) : Bool := nextIs o fun s => s.rsp == some (.error e)

/-! ## WellFormed: an ill-formed term for each check -/

theorem test_wf_requests :
    (Instr.reqWriteMultipleCoils 0 (List.replicate 2041 true)).wf = false ∧
    (Instr.reqWriteMultipleRegisters 0 (List.replicate 128 0)).wf = false ∧
    (Instr.reqUnsupported 0x01).wf = false ∧ (Instr.reqUnsupported 0x10).wf = false ∧
    (Instr.reqUnsupported 0x07).wf = true := by decide +kernel

theorem test_wf_responses :
    (Instr.rspReadCoils ⟨.readCoils, none⟩ (List.replicate 256 0)).wf = false ∧
    (Instr.rspReadDiscreteInputs ⟨.readCoils, none⟩ (List.replicate 256 0)).wf = false ∧
    (Instr.rspReadHoldingRegisters ⟨.readCoils, none⟩ (List.replicate 128 0)).wf = false ∧
    (Instr.rspReadInputRegisters ⟨.readCoils, none⟩ (List.replicate 128 0)).wf = false ∧
    (Instr.rspException 0x81 0x02).wf = false := by decide +kernel

theorem test_wf_commands :
    (Instr.rtuFrame 1 []).wf = false ∧ (Instr.ascFrame 1 []).wf = false ∧ (Instr.mbapFrame 1 1 []).wf = false ∧
    (Instr.rspCheckExc []).wf = false ∧ (Instr.slaveExec []).wf = false ∧
    (Instr.pduEncReq (.writeMultipleCoils 0 (List.replicate 2041 true))).wf = false ∧
    (Instr.pduEncReq (.writeMultipleRegisters 0 (List.replicate 128 0))).wf = false ∧
    (Instr.pduEncRsp (.readCoils (List.replicate 2041 true))).wf = false ∧
    (Instr.pduEncRsp (.readDiscreteInputs (List.replicate 2041 true))).wf = false ∧
    (Instr.pduEncRsp (.readHoldingRegisters (List.replicate 128 0))).wf = false ∧
    (Instr.pduEncRsp (.readInputRegisters (List.replicate 128 0))).wf = false ∧
    (Instr.dsWrite .cd 0 (.regs [1])).wf = false ∧ (Instr.dsWrite .ir 0 (.bits [true])).wf = false ∧
    (Instr.dsGrow .hr (.bits [true])).wf = false ∧ (Instr.dsGrow .id (.regs [1])).wf = false ∧
    (Instr.masterExecute 1 (.writeMultipleRegisters 0 (List.replicate 128 0))).wf = false := by decide +kernel

/-! ## Decoding, from bytes written out from the formats -/

/-- Requests: RQ-RD (R87), RQ-WS (R88, R89), RQ-WMB (R90), RQ-WMR (R91), and the default row (R99). -/
theorem test_decode_requests :
    decode (.request [0x01, 0x00, 0x13, 0x00, 0x25]) = .ok (.reqReadCoils 0x0013 0x0025) ∧
    decode (.request [0x02, 0x00, 0xC4, 0x00, 0x16]) = .ok (.reqReadDiscreteInputs 196 22) ∧
    decode (.request [0x03, 0x00, 0x6B, 0x00, 0x03]) = .ok (.reqReadHoldingRegisters 0x006B 3) ∧
    decode (.request [0x04, 0x00, 0x08, 0x00, 0x01]) = .ok (.reqReadInputRegisters 8 1) ∧
    decode (.request [0x05, 0x00, 0xAC, 0xFF, 0x00]) = .ok (.reqWriteSingleCoil 172 true) ∧
    decode (.request [0x06, 0x00, 0x06, 0xBE, 0xEF]) = .ok (.reqWriteSingleRegister 6 0xBEEF) ∧
    decode (.request [0x0F, 0x00, 0x13, 0x00, 0x0A, 0x02, 0xCD, 0xFD])
      = .ok (.reqWriteMultipleCoils 19 [true, false, true, true, false, false, true, true, true, false]) ∧
    decode (.request [0x10, 0x00, 0x02, 0x00, 0x02, 0x04, 0x12, 0x34, 0xAB, 0xCD])
      = .ok (.reqWriteMultipleRegisters 2 [0x1234, 0xABCD]) ∧
    decode (.request [0x81, 0x02]) = .ok (.reqUnsupported 0x81) := by decide +kernel

/-- Responses: RS-BITS (R92), RS-REGS (R93), RS-ECHO (R94), RS-WM (R95), RS-EXC (R97). -/
theorem test_decode_responses :
    decode (.response [0x01, 0x02, 0xCD, 0x01] ⟨.readCoils, some 10⟩)
      = .ok (.rspReadCoils ⟨.readCoils, some 10⟩ [0xCD, 0x01]) ∧
    decode (.response [0x02, 0x01, 0x04] ⟨.readDiscreteInputs, some 3⟩)
      = .ok (.rspReadDiscreteInputs ⟨.readDiscreteInputs, some 3⟩ [0x04]) ∧
    decode (.response [0x03, 0x06, 0x00, 0x01, 0x00, 0x02, 0x00, 0x03] ⟨.readHoldingRegisters, none⟩)
      = .ok (.rspReadHoldingRegisters ⟨.readHoldingRegisters, none⟩ [1, 2, 3]) ∧
    decode (.response [0x04, 0x02, 0x00, 0x0A] ⟨.readInputRegisters, some 1⟩)
      = .ok (.rspReadInputRegisters ⟨.readInputRegisters, some 1⟩ [10]) ∧
    decode (.response [0x05, 0x00, 0xAC, 0x00, 0x00] ⟨.writeSingleCoil, none⟩)
      = .ok (.rspWriteSingleCoil ⟨.writeSingleCoil, none⟩ 172 false) ∧
    decode (.response [0x06, 0x00, 0x01, 0x00, 0x03] ⟨.writeSingleRegister, none⟩)
      = .ok (.rspWriteSingleRegister ⟨.writeSingleRegister, none⟩ 1 3) ∧
    decode (.response [0x0F, 0x00, 0x13, 0x00, 0x0A] ⟨.writeMultipleCoils, none⟩)
      = .ok (.rspWriteMultipleCoils ⟨.writeMultipleCoils, none⟩ 19 10) ∧
    decode (.response [0x10, 0x00, 0x01, 0x00, 0x02] ⟨.writeMultipleRegisters, none⟩)
      = .ok (.rspWriteMultipleRegisters ⟨.writeMultipleRegisters, none⟩ 1 2) ∧
    decode (.response [0xFF, 0x00] ⟨.readCoils, none⟩) = .ok (.rspException 0x7F 0x00) := by decide +kernel

/-- Host commands: the codes of R103. -/
theorem test_decode_commands :
    decode (.command 0x00 [.bytes [1]]) = .ok (.crc16 [1]) ∧ decode (.command 0x01 [.bytes [1]]) = .ok (.lrc [1]) ∧
    decode (.command 0x10 [.byte 2, .bytes [1]]) = .ok (.rtuFrame 2 [1]) ∧
    decode (.command 0x11 [.bytes [1]]) = .ok (.rtuUnframe [1]) ∧
    decode (.command 0x12 [.byte 2, .bytes [1]]) = .ok (.ascFrame 2 [1]) ∧
    decode (.command 0x13 [.bytes [1]]) = .ok (.ascUnframe [1]) ∧
    decode (.command 0x14 [.word 3, .byte 2, .bytes [1]]) = .ok (.mbapFrame 3 2 [1]) ∧
    decode (.command 0x15 [.bytes [1]]) = .ok (.mbapUnframe [1]) ∧
    decode (.command 0x16 [.bytes [1]]) = .ok (.rspCheckExc [1]) ∧
    decode (.command 0x20 [.request (.readCoils 0 2)]) = .ok (.pduEncReq (.readCoils 0 2)) ∧
    decode (.command 0x21 [.bytes [1]]) = .ok (.pduDecReq [1]) ∧
    decode (.command 0x22 [.response (.readCoils [true])]) = .ok (.pduEncRsp (.readCoils [true])) ∧
    decode (.command 0x23 [.bytes [1], .expect ⟨.readCoils, some 2⟩]) = .ok (.pduDecRsp [1] ⟨.readCoils, some 2⟩) ∧
    decode (.command 0x24 [.byte 1, .byte 2]) = .ok (.pduEncExc 1 2) ∧
    decode (.command 0x30 [.bank .ir, .nat 1, .nat 2]) = .ok (.dsRead .ir 1 2) ∧
    decode (.command 0x31 [.bank .ir, .nat 1, .values (.regs [5])]) = .ok (.dsWrite .ir 1 (.regs [5])) ∧
    decode (.command 0x32 []) = .ok .dsCreate ∧
    decode (.command 0x33 [.values (.bits [true]), .values (.bits []), .values (.regs [1]), .values (.regs [])])
      = .ok (.dsLoad [true] [] [1] []) ∧
    decode (.command 0x34 [.bank .hr, .values (.regs [9])]) = .ok (.dsGrow .hr (.regs [9])) ∧
    decode (.command 0x35 [.channel .writtenTo, .observer 7]) = .ok (.obsSubscribe .writtenTo 7) ∧
    decode (.command 0x40 [.bytes [1]]) = .ok (.slaveStep [1]) ∧
    decode (.command 0x41 [.bytes [1]]) = .ok (.slaveExec [1]) ∧
    decode (.command 0x50 [.byte 1, .request (.readCoils 0 2)]) = .ok (.masterExecute 1 (.readCoils 0 2)) ∧
    decode (.command 0x02 [.bytes [1]]) = .error (.unknownCommand 0x02) ∧
    decode (.command 0x30 [.nat 1, .bank .ir]) = .error (.badOperands 0x30) := by decide +kernel

/-- What no row fits is rejected by name (R152, R182). -/
theorem test_decode_rejects :
    decode (.request [0x01, 0x00, 0x00, 0x00]) = .error (.request .length) ∧
    decode (.request [0x05, 0x00, 0xAC, 0x00, 0x01]) = .error (.request (.coilValue 1)) ∧
    decode (.request [0x0F, 0x00, 0x13, 0x00, 0x0A, 0x01, 0xCD]) = .error (.request .byteCount) ∧
    decode (.response [0x81] ⟨.readCoils, none⟩) = .error (.response .length) ∧
    decode (.response [0x07] ⟨.readCoils, none⟩) = .error (.response (.function 0x07)) := by decide +kernel

/-- The host's numbering: bit 0 is the least significant bit of the first byte. -/
theorem test_decodeTableWord :
    decodeTableWord 40 0x05006B0003 = some (.reqReadHoldingRegisters 0x006B 0x0005) := by decide +kernel

theorem test_decodeTableWord_spaces :
    decodeTableWord 16 0x0281 = some (.rspException 0x01 0x02) ∧ decodeTableWord 8 0x41 = some (.slaveExec [0]) ∧
    decodeTableWord 8 0x07 = some (.reqUnsupported 0x07) ∧ decodeTableWord 8 0x32 = some .dsCreate := by decide +kernel

/-- Section 2.2: bit packing. -/
theorem test_packBits :
    packBits [true, true, true, true, false, false, true] = [0x4F] ∧
    packBits [false, false, false, false, false, false, false, false, true] = [0x00, 0x01] ∧
    unpackBits [0xCD, 0xFD] 10 = [true, false, true, true, false, false, true, true, true, false] := by decide +kernel

/-! ## One step: the framer (section 2.5) -/

theorem test_crc16 : answers (exec (.crc16 [0x31, 0x32, 0x33, 0x34, 0x35, 0x36, 0x37, 0x38, 0x39]) State.reset)
    (.word 0x4B37) = true := by decide +kernel

theorem test_lrc : answers (exec (.lrc [0xF7, 0x03, 0x13, 0x89, 0x00, 0x0A]) State.reset) (.byte 0x60) = true := by
  decide +kernel

theorem test_rtuFrame : answers (exec (.rtuFrame 0x11 [0x03, 0x00, 0x6B, 0x00, 0x03]) State.reset)
    (.bytes [0x11, 0x03, 0x00, 0x6B, 0x00, 0x03, 0x76, 0x87]) = true := by decide +kernel

theorem test_rtuUnframe : answers (exec (.rtuUnframe [0x00, 0x00, 0x01, 0xB0]) State.reset) (.unframed 0 [0]) = true ∧
    raises (exec (.rtuUnframe [0x02, 0x01, 0x00, 0x00, 0x00, 0x02, 0xF8, 0xBD]) State.reset) (.ioError .checksum)
      = true := by decide +kernel

theorem test_ascFrame : answers (exec (.ascFrame 0xF7 [0x03, 0x13, 0x89, 0x00, 0x0A]) State.reset)
    (.bytes [0x3A, 0x46, 0x37, 0x30, 0x33, 0x31, 0x33, 0x38, 0x39, 0x30, 0x30, 0x30, 0x41, 0x36, 0x30, 0x0D, 0x0A])
      = true := by decide +kernel

/-- `:0101FE` and, with a lowercase digit, `:0101fe`. -/
theorem test_ascUnframe :
    answers (exec (.ascUnframe [0x3A, 0x30, 0x31, 0x30, 0x31, 0x46, 0x45, 0x0D, 0x0A]) State.reset) (.unframed 1 [1])
      = true ∧
    raises (exec (.ascUnframe [0x3A, 0x30, 0x31, 0x30, 0x31, 0x66, 0x65, 0x0D, 0x0A]) State.reset) (.ioError .hex)
      = true := by decide +kernel

theorem test_mbapFrame : answers (exec (.mbapFrame 0x1234 0x11 [0x03, 0x00, 0x6B, 0x00, 0x03])
    (withCfg fun c => { c with mbapPresent := true }))
    (.bytes [0x12, 0x34, 0x00, 0x00, 0x00, 0x06, 0x11, 0x03, 0x00, 0x6B, 0x00, 0x03]) = true := by decide +kernel

theorem test_mbapUnframe :
    raises (exec (.mbapUnframe [0x00, 0x01, 0x00, 0x01, 0x00, 0x06, 0x02, 0x01, 0x00, 0x00, 0x00, 0x02])
      (withCfg fun c => { c with mbapPresent := true })) (.formatError .protocol) = true ∧
    answers (exec (.mbapUnframe [0x00, 0x01, 0x00, 0x00, 0x00, 0x03, 0x02, 0x81, 0x02])
      (withCfg fun c => { c with mbapPresent := true })) (.mbapUnframed 1 2 [0x81, 0x02]) = true := by decide +kernel

theorem test_rspCheckExc : raises (exec (.rspCheckExc [0x81, 0x02]) State.reset) (.slaveException 0x01 0x02) = true ∧
    answers (exec (.rspCheckExc [0x01, 0x01, 0x01]) State.reset) (.bytes [0x01, 0x01, 0x01]) = true := by
  decide +kernel

/-! ## One step: the codec (sections 2.3, 2.4) -/

theorem test_pduEncReq : answers (exec (.pduEncReq (.writeMultipleCoils 19
    [true, false, true, true, false, false, true, true, true, false])) State.reset)
    (.bytes [0x0F, 0x00, 0x13, 0x00, 0x0A, 0x02, 0xCD, 0x01]) = true := by decide +kernel

theorem test_pduDecReq :
    raises (exec (.pduDecReq [0x0F, 0x00, 0x00, 0x07, 0xF8, 0xFF]) State.reset) (.formatError .length) = true ∧
    raises (exec (.pduDecReq [0x10, 0x00, 0x01, 0x00, 0x80, 0x00]) State.reset) (.formatError .byteCount) = true := by
  decide +kernel

theorem test_pduEncRsp : answers (exec (.pduEncRsp (.readHoldingRegisters [1, 2, 3])) State.reset)
    (.bytes [0x03, 0x06, 0x00, 0x01, 0x00, 0x02, 0x00, 0x03]) = true := by decide +kernel

theorem test_pduDecRsp :
    raises (exec (.pduDecRsp [0x81, 0x02, 0xFF, 0xFF] ⟨.readHoldingRegisters, none⟩) State.reset)
      (.slaveException 0x01 0x02) = true ∧
    answers (exec (.pduDecRsp [0x01, 0x01, 0xFF] ⟨.readCoils, some 3⟩) State.reset)
      (.response (.readCoils [true, true, true])) = true := by decide +kernel

theorem test_pduEncExc : answers (exec (.pduEncExc 0x10 0x03) State.reset) (.bytes [0x90, 0x03]) = true := by
  decide +kernel

theorem test_rspReadBits :
    answers (exec (.rspReadCoils ⟨.readCoils, none⟩ [0x01]) State.reset)
      (.response (.readCoils [true, false, false, false, false, false, false, false])) = true ∧
    answers (exec (.rspReadDiscreteInputs ⟨.readDiscreteInputs, some 3⟩ [0x04]) State.reset)
      (.response (.readDiscreteInputs [false, false, true])) = true ∧
    raises (exec (.rspReadCoils ⟨.readCoils, some 2⟩ [0x01, 0x00]) State.reset) (.formatError .byteCount) = true := by
  decide +kernel

theorem test_rspReadRegisters :
    raises (exec (.rspReadHoldingRegisters ⟨.readHoldingRegisters, some 2⟩ [1, 2, 3]) State.reset)
      (.formatError .byteCount) = true ∧
    answers (exec (.rspReadInputRegisters ⟨.readInputRegisters, some 1⟩ [10]) State.reset)
      (.response (.readInputRegisters [10])) = true ∧
    raises (exec (.rspReadHoldingRegisters ⟨.readCoils, none⟩ [7]) State.reset) (.formatError (.function 0x03))
      = true := by decide +kernel

theorem test_rspWrites :
    answers (exec (.rspWriteSingleCoil ⟨.writeSingleCoil, none⟩ 172 true) State.reset)
      (.response (.writeSingleCoil 172 true)) = true ∧
    answers (exec (.rspWriteSingleRegister ⟨.writeSingleRegister, none⟩ 1 3) State.reset)
      (.response (.writeSingleRegister 1 3)) = true ∧
    answers (exec (.rspWriteMultipleCoils ⟨.writeMultipleCoils, none⟩ 19 10) State.reset)
      (.response (.writeMultipleCoils 19 10)) = true ∧
    answers (exec (.rspWriteMultipleRegisters ⟨.writeMultipleRegisters, none⟩ 1 2) State.reset)
      (.response (.writeMultipleRegisters 1 2)) = true ∧
    raises (exec (.rspException 0x7F 0x00) State.reset) (.slaveException 0x7F 0x00) = true := by decide +kernel

/-! ## One step: the DataStore (section 2.1) -/

/-- Store A of section 2.1. -/
def storeA : State :=
  store [false, false, false, false, false, false, true] [true, false, true] [0, 1, 2, 3, 4, 5, 6] [10, 20]

theorem test_dsRead : nextIs (exec (.dsRead .hr 1 3) storeA) (fun s => s.rsp == some (.ok (.data (.regs [1, 2, 3]))) &&
    s.evtR == [⟨.holdingRegister, 1, .regs [1, 2, 3]⟩] && s.evtW == []) = true := by decide +kernel

theorem test_dsRead_edges :
    nextIs (exec (.dsRead .hr 7 0) storeA) (fun s => s.rsp == some (.ok (.data (.regs []))) &&
      s.evtR == [⟨.holdingRegister, 7, .regs []⟩]) = true ∧
    raises (exec (.dsRead .hr 8 0) storeA) (.outOfRange .hr 8 0) = true ∧
    raises (exec (.dsRead .hr 65535 65535) storeA) (.outOfRange .hr 65535 65535) = true := by decide +kernel

theorem test_dsWrite : nextIs (exec (.dsWrite .cd 0 (.bits [true, true, true, true])) storeA) (fun s =>
    s.mem.cd == [false, true, true, true, true, false, false, true] &&
    s.evtW == [⟨.coil, 0, .bits [true, true, true, true]⟩] && s.evtR == []) = true := by decide +kernel

theorem test_dsWrite_outOfRange : nextIs (exec (.dsWrite .cd 6 (.bits [false, false])) storeA) (fun s =>
    s.rsp == some (.error (.outOfRange .cd 6 2)) && s.mem == storeA.mem && s.evtW == []) = true := by decide +kernel

theorem test_dsCreate : nextIs (exec .dsCreate (State.beforeCreation { Cfg.default with slotsHR := 3, slotsCD := 0 }))
    (fun s => s.mem.hr == [0, 0, 0, 0] && s.mem.cd == [false]) = true ∧
    refusedIs (exec .dsCreate State.reset) .storeAlreadyCreated = true := by decide +kernel

/-- The example of R134. -/
theorem test_dsLoad : nextIs (exec (.dsLoad [] [] [0, 1, 2, 3, 4, 5, 6] []) (State.beforeCreation Cfg.default))
    (fun s => s.mem == ⟨[false], [false], [0, 0, 1, 2, 3, 4, 5, 6], [0]⟩) = true := by decide +kernel

/-- The example of R135. -/
theorem test_dsGrow : nextIs (exec (.dsGrow .hr (.regs [9])) (store [] [] [7, 8] []))
    (fun s => s.mem.hr == [0, 7, 8, 9] && s.evtW == []) = true := by decide +kernel

theorem test_obsSubscribe : nextIs (exec (.obsSubscribe .readFrom 1) { State.reset with obsR := [0, 2] })
    (fun s => s.obsR == [0, 1, 2] && s.obsW == []) = true := by decide +kernel

/-! ## One step: the slave datapath (section 2.6) -/

theorem test_reqReadCoils : nextIs (exec (.reqReadCoils 0 4) (store [true, false, true, true] [] [] [])) (fun s =>
    s.rsp == some (.ok (.reply (some [0x01, 0x01, 0x0D]))) &&
    s.evtR == [⟨.coil, 0, .bits [true, false, true, true]⟩]) = true := by decide +kernel

theorem test_reqReadDiscreteInputs :
    answers (exec (.reqReadDiscreteInputs 0 3) (store [] [false, false, true] [] [])) (.reply (some [0x02, 0x01, 0x04]))
      = true := by decide +kernel

theorem test_reqReadHoldingRegisters :
    answers (exec (.reqReadHoldingRegisters 1 3) storeA)
      (.reply (some [0x03, 0x06, 0x00, 0x01, 0x00, 0x02, 0x00, 0x03])) = true ∧
    answers (exec (.reqReadHoldingRegisters 60000 0) storeA) (.reply (some [0x83, 0x03])) = true := by decide +kernel

theorem test_reqReadInputRegisters :
    answers (exec (.reqReadInputRegisters 0 1) (store [] [] [] [10])) (.reply (some [0x04, 0x02, 0x00, 0x0A])) = true := by
  decide +kernel

theorem test_reqWriteSingleCoil : nextIs (exec (.reqWriteSingleCoil 1 true) (store [false, false] [] [] [])) (fun s =>
    s.rsp == some (.ok (.reply (some [0x05, 0x00, 0x01, 0xFF, 0x00]))) && s.mem.cd == [false, false, true] &&
    s.evtW == [⟨.coil, 1, .bits [true]⟩]) = true := by decide +kernel

theorem test_reqWriteSingleRegister : nextIs (exec (.reqWriteSingleRegister 1 3) (store [] [] [0, 0] [])) (fun s =>
    s.rsp == some (.ok (.reply (some [0x06, 0x00, 0x01, 0x00, 0x03]))) && s.mem.hr == [0, 0, 3]) = true := by
  decide +kernel

theorem test_reqWriteMultipleCoils : nextIs (exec (.reqWriteMultipleCoils 5 [true, true, true, true]) storeA) (fun s =>
    s.rsp == some (.ok (.reply (some [0x8F, 0x02]))) && s.mem == storeA.mem && s.evtW == []) = true := by
  decide +kernel

theorem test_reqWriteMultipleRegisters :
    nextIs (exec (.reqWriteMultipleRegisters 1 [10, 258]) (store [] [] [0, 0, 0] [])) (fun s =>
      s.rsp == some (.ok (.reply (some [0x10, 0x00, 0x01, 0x00, 0x02]))) && s.mem.hr == [0, 0, 10, 258]) = true := by
  decide +kernel

theorem test_reqUnsupported : answers (exec (.reqUnsupported 0x2B) State.reset) (.reply (some [0xAB, 0x01])) = true := by
  decide +kernel

theorem test_slaveExec :
    answers (exec (.slaveExec [0x05, 0x00, 0x01, 0x12, 0x34]) (withCfg fun c => { c with malformedPolicy := .drop }))
      (.reply (some [0x85, 0x03])) = true ∧
    answers (exec (.slaveExec [0x03, 0x00, 0x00]) (withCfg fun c => { c with malformedPolicy := .drop })) (.reply none)
      = true := by decide +kernel

theorem test_slaveStep : nextIs (exec (.slaveStep [0x01, 0x01, 0x00, 0x00, 0x00, 0x04, 0x3D, 0xC9])
    (store [true, false, true, true] [] [] [])) (fun s =>
      s.rsp == some (.ok (.reply (some [0x01, 0x01, 0x01, 0x0D, 0x90, 0x4D]))) &&
      s.slaveTx == [[0x01, 0x01, 0x01, 0x0D, 0x90, 0x4D]]) = true := by decide +kernel

theorem test_slaveStep_filtered : nextIs (exec (.slaveStep [0x02, 0x01, 0x00, 0x00, 0x00, 0x04, 0x3D, 0xFA])
    (withCfg fun c => { c with unitFilter := 2 })) (fun s => s.rsp == some (.ok (.reply none)) && s.slaveTx == [])
      = true := by decide +kernel

/-! ## One step: the Master (section 2.7) -/

theorem test_masterExecute : nextIs (exec (.masterExecute 0x11 (.readHoldingRegisters 3 3))
    { withCfg (fun c => { c with retries := 2 }) with masterRx := [.timeout,
      .frame [0x11, 0x03, 0x06, 0x00, 0x03, 0x00, 0x04, 0x00, 0x04, 0x29, 0x77],
      .frame [0x11, 0x03, 0x06, 0x00, 0x03, 0x00, 0x04, 0x00, 0x05, 0x29, 0x77]] }) (fun s =>
    s.rsp == some (.ok (.response (.readHoldingRegisters [3, 4, 5]))) &&
    s.masterTx == List.replicate 3 [0x11, 0x03, 0x00, 0x03, 0x00, 0x03, 0xF7, 0x5B]) = true := by decide +kernel

theorem test_masterExecute_exception : nextIs (exec (.masterExecute 0x11 (.readHoldingRegisters 3 3))
    { withCfg (fun c => { c with retries := 2 }) with masterRx := [.frame [0x11, 0x83, 0x02, 0xC1, 0x34]] }) (fun s =>
    s.rsp == some (.error (.slaveException 0x03 0x02)) && s.attempts == 1 &&
    s.mtrace == [.sending, .awaitingResponse, .validating, .failed, .idle]) = true := by decide +kernel

/-! ## One step of the machine -/

theorem test_step_request : nextIs (step { storeA with pending := [.request [0x04, 0x00, 0x00, 0x00, 0x02]] }) (fun s =>
    s.rsp == some (.ok (.reply (some [0x04, 0x04, 0x00, 0x0A, 0x00, 0x14]))) && s.pending == []) = true := by
  decide +kernel

theorem test_step_rejects :
    answers (step { storeA with pending := [.request [0x03, 0x00, 0x00]] }) (.reply (some [0x83, 0x03])) = true ∧
    raises (step { storeA with pending := [.response [0x81] ⟨.readCoils, some 2⟩] }) (.formatError .length) = true ∧
    refusedIs (step { storeA with pending := [.command 0x17 []] }) (.unknownCommand 0x17) = true := by decide +kernel

/-! ## Witnesses

For each statement of Obligations.lean with hypotheses, instances that meet them, at the edges of their ranges. Where a
hypothesis is that an operation answers a next state, the witness is an operation that does. -/

/-- MBAP present. -/
def mbapState : State := withCfg fun c => { c with mbapPresent := true, framing := .mbap }

theorem witness_DecodeOfEncode :
    (Instr.reqWriteMultipleCoils 0xFFFF (List.replicate 2040 true)).wf = true ∧
    (Instr.reqWriteMultipleRegisters 0 (List.replicate 127 0xFFFF)).wf = true ∧
    (Instr.rspReadCoils ⟨.readCoils, none⟩ (List.replicate 255 0xFF)).wf = true ∧
    (Instr.rspException 0x7F 0xFF).wf = true ∧ (Instr.reqUnsupported 0xFF).wf = true := by decide +kernel

theorem witness_RequestCodecRoundTrip :
    (Request.writeMultipleCoils 0 (List.replicate 2040 true)).wf = true ∧
    (Request.writeMultipleRegisters 0 (List.replicate 127 1)).wf = true ∧
    decodeRequest [0x0F, 0x00, 0x13, 0x00, 0x02, 0x01, 0xFD] = .ok (.writeMultipleCoils 19 [true, false]) ∧
    decodeRequest [0x06, 0xFF, 0xFF, 0xFF, 0xFF] = .ok (.writeSingleRegister 0xFFFF 0xFFFF) := by decide +kernel

theorem witness_RequestCodecRoundTrip_other :
    ∀ start values, Request.writeSingleRegister 0xFFFF 0xFFFF ≠ .writeMultipleCoils start values := by
  intro _ _ h; cases h

theorem witness_ResponseCodecRoundTrip :
    (Response.readCoils (List.replicate 2040 true)).wf = true ∧ (Response.readDiscreteInputs [true]).wf = true ∧
    (Response.readHoldingRegisters (List.replicate 127 1)).wf = true ∧ (Response.readInputRegisters []).wf = true ∧
    (Response.writeSingleCoil 0xFFFF true).wf = true := by decide +kernel

theorem witness_ResponseCodecRoundTrip_write :
    (∀ l, Response.writeSingleCoil 0xFFFF true ≠ .readCoils l) ∧
    (∀ l, Response.writeSingleCoil 0xFFFF true ≠ .readDiscreteInputs l) ∧
    (∀ l, Response.writeSingleCoil 0xFFFF true ≠ .readHoldingRegisters l) ∧
    (∀ l, Response.writeSingleCoil 0xFFFF true ≠ .readInputRegisters l) := by
  refine ⟨?_, ?_, ?_, ?_⟩ <;> intro _ h <;> cases h

/-- Bit 7 of a byte, and the last element of a collection. -/
theorem witness_BitsArePackedLowestFirst : 7 < 8 ∧ 9 < 10 ∧
    ((packBits [false, false, false, false, false, false, false, true]).getD 0 0).getLsbD 7 = true := by
  decide +kernel

theorem witness_RTU_FRAME_Result :
    1 ≤ ([0x00] : List Byte).length ∧ (List.replicate 253 (0 : Byte)).length ≤ State.reset.cfg.maxPdu ∧
    ([] : List Byte).length = 0 ∧ State.reset.cfg.maxPdu < (List.replicate 254 (0 : Byte)).length := by decide +kernel

theorem witness_RTU_UNFRAME_Result :
    ([0x02, 0x01, 0xBD] : List Byte).length < 4 ∧ 1 ≤ ([0x00] : List Byte).length ∧
    State.reset.cfg.maxPdu < (List.replicate 254 (0 : Byte)).length ∧
    ([0x00] : List Byte).length ≤ State.reset.cfg.maxPdu ∧
    (crc16 [0x00, 0x00]).toNat ≠ (0x00 : Byte).toNat + 256 * (0x00 : Byte).toNat ∧
    (crc16 [0x00, 0x00]).toNat = (0x01 : Byte).toNat + 256 * (0xB0 : Byte).toNat := by decide +kernel

theorem witness_RSP_CHECK_EXC_Result :
    (0x7F : Byte).getLsbD 7 = false ∧ (0x80 : Byte).getLsbD 7 = true ∧
    ([0x02] : List Byte) = 0x02 :: [] := by decide +kernel

theorem witness_HexCodec :
    (9 : Byte).toNat ≤ 9 ∧ 10 ≤ (10 : Byte).toNat ∧ (15 : Byte).toNat ≤ 15 ∧
    hexDecode false [0x30, 0x32, 0x46, 0x42] = some [0x02, 0xFB] ∧ 1 < ([0x02, 0xFB] : List Byte).length := by
  decide +kernel

theorem witness_ASC_FRAME_Result :
    1 ≤ ([0xFF] : List Byte).length ∧ (List.replicate 253 (0 : Byte)).length ≤ State.reset.cfg.maxPdu ∧
    ([] : List Byte).length = 0 ∧ State.reset.cfg.maxPdu < (List.replicate 254 (0 : Byte)).length := by decide +kernel

/-- Seven bytes; nine bytes without a colon, and without a line end; a space among the digits; a PDU one byte too long;
a wrong and a right LRC. -/
theorem witness_ASC_UNFRAME_Result :
    ([0x3A, 0x30, 0x32, 0x46, 0x45, 0x0D, 0x0A] : List Byte).length < 9 ∧
    ([0x3B, 0x30, 0x31, 0x30, 0x31, 0x46, 0x45, 0x0D, 0x0A] : List Byte).head? ≠ some 0x3A ∧
    ([0x3A, 0x30, 0x31, 0x30, 0x31, 0x46, 0x45, 0x0A, 0x0D] : List Byte).drop 7 ≠ [0x0D, 0x0A] ∧
    hexDecode State.reset.cfg.hexAcceptLower [0x30, 0x31, 0x20, 0x31, 0x46, 0x45] = none ∧
    hexDecode State.reset.cfg.hexAcceptLower [0x30, 0x31, 0x30, 0x31, 0x46, 0x45] = some ([0x01, 0x01] ++ [0xFE]) ∧
    lrc [0x01, 0x01] = 0xFE ∧ lrc [0x01, 0x01] ≠ 0xFD := by decide +kernel

theorem witness_ASC_UNFRAME_Result_long :
    (withCfg fun c => { c with maxPdu := 1 }).cfg.maxPdu < ([0x01, 0x02] : List Byte).length ∧
    hexDecode false [0x30, 0x31, 0x30, 0x31, 0x30, 0x32, 0x46, 0x43] = some (0x01 :: [0x01, 0x02] ++ [0xFC]) := by
  decide +kernel

theorem witness_MBAP_FRAME_Result :
    mbapState.cfg.mbapPresent = true ∧ State.reset.cfg.mbapPresent = false ∧ 1 ≤ ([0x00] : List Byte).length ∧
    (List.replicate 253 (0 : Byte)).length ≤ mbapState.cfg.maxPdu ∧
    mbapState.cfg.maxPdu < (List.replicate 254 (0 : Byte)).length := by decide +kernel

theorem witness_MBAP_UNFRAME_Result :
    mbapState.cfg.mbapPresent = true ∧ ([0, 1, 0, 0, 0, 1, 2] : List Byte).length < 8 ∧
    u16be 0x00 0x01 ≠ 0 ∧ u16be 0x00 0x00 = 0 ∧ (u16be 0x00 0x07).toNat ≠ 5 + 7 - 6 ∧
    (u16be 0x00 0x06).toNat = 5 + 7 - 6 := by decide +kernel

theorem witness_FrameRoundTrip :
    1 ≤ ([0xFF] : List Byte).length ∧ (List.replicate 253 (0xFF : Byte)).length ≤ mbapState.cfg.maxPdu ∧
    mbapState.cfg.mbapPresent = true ∧ (List.replicate 253 (0xFF : Byte)).length ≤ 65534 := by decide +kernel

/-- The first and the last byte of a frame changed. -/
theorem witness_OneCorruptedByteIsDetected :
    0 < (rtuFrame 0x02 [0x01]).length ∧ (rtuFrame 0x02 [0x01])[0]? ≠ some 0x03 ∧
    3 < (rtuFrame 0x02 [0x01]).length ∧ (rtuFrame 0x02 [0x01])[3]? ≠ some 0x11 ∧
    State.reset.cfg.hexAcceptLower = false ∧ 8 < (ascFrame 0xFF [0xFF]).length ∧
    (ascFrame 0xFF [0xFF])[8]? ≠ some 0x0D ∧ ([0x01] : List Byte).length ≤ State.reset.cfg.maxPdu := by decide +kernel

theorem witness_PDU_ENC_REQ_Result :
    (List.replicate 2040 true).length ≤ 2040 ∧ (List.replicate 127 (0 : Word)).length ≤ 127 ∧
    2040 < (List.replicate 2041 true).length ∧ 127 < (List.replicate 128 (0 : Word)).length := by decide +kernel

theorem witness_PDU_DEC_REQ_Result :
    (0x07 : Byte) ∉ ([0x01, 0x02, 0x03, 0x04, 0x05, 0x06, 0x0F, 0x10] : List Byte) ∧
    (0x06 : Byte) ∈ ([0x01, 0x02, 0x03, 0x04, 0x05, 0x06] : List Byte) ∧ ([0, 0, 0] : List Byte).length ≠ 4 ∧
    u16be 0x00 0x01 ≠ 0xFF00 ∧ u16be 0x00 0x01 ≠ 0x0000 ∧ ([0, 0, 0, 0] : List Byte).length < 5 ∧
    (0x01 : Byte).toNat ≠ ceil8 (u16be 0x00 0x0A).toNat ∧ (0xFF : Byte).toNat = ceil8 (u16be 0x07 0xF8).toNat ∧
    (List.replicate 255 (0 : Byte)).length = (0xFF : Byte).toNat ∧ ([] : List Byte).length ≠ (0xFF : Byte).toNat ∧
    (0x00 : Byte).toNat ≠ 2 * (u16be 0x00 0x80).toNat ∧ (0xFE : Byte).toNat = 2 * (u16be 0x00 0x7F).toNat ∧
    (List.replicate 254 (0 : Byte)).length = (0xFE : Byte).toNat ∧ ([] : List Byte).length ≠ (0xFE : Byte).toNat := by
  decide +kernel

theorem witness_PDU_ENC_RSP_Result :
    (List.replicate 2040 true).length ≤ 2040 ∧ (List.replicate 127 (0 : Word)).length ≤ 127 ∧
    2040 < (List.replicate 2041 true).length ∧ 127 < (List.replicate 128 (0 : Word)).length := by decide +kernel

theorem witness_PDU_DEC_RSP_Bits :
    (0x80 : Byte).getLsbD 7 = true ∧ (0x03 : Byte).getLsbD 7 = false ∧ 0x03 ≠ (FuncCode.readCoils).toByte ∧
    ([0x01] : List Byte).length ≠ (0x02 : Byte).toNat ∧ ([0x01, 0x00] : List Byte).length = (0x02 : Byte).toNat ∧
    (0x02 : Byte).toNat ≠ ceil8 2 ∧ (0x02 : Byte).toNat = ceil8 9 ∧ (0x02 : Byte).toNat = ceil8 16 ∧
    16 = 8 * (0x02 : Byte).toNat := by decide +kernel

theorem witness_PDU_DEC_RSP_RegistersAndEchoes :
    ([0x00] : List Byte).length ≠ (0x02 : Byte).toNat ∧ ([0, 1, 0] : List Byte).length = (0x03 : Byte).toNat ∧
    (0x03 : Byte).toNat % 2 = 1 ∧ (0x06 : Byte).toNat ≠ 2 * 2 ∧ (0x06 : Byte).toNat = 2 * 3 ∧
    ([0, 1, 0, 2, 0, 3] : List Byte).length = (0x06 : Byte).toNat ∧ (0x06 : Byte).toNat % 2 = 0 ∧
    ([0x00, 0xAC, 0xFF] : List Byte).length ≠ 4 ∧ u16be 0xFF 0x00 = 0xFF00 ∧ u16be 0x00 0x00 = 0x0000 ∧
    u16be 0x12 0x34 ≠ 0xFF00 ∧ u16be 0x12 0x34 ≠ 0x0000 := by decide +kernel

theorem witness_PDU_ENC_EXC_Result : 128 ≤ (0x80 : Byte).toNat := by decide

theorem witness_ResponseReadRows :
    (List.replicate 255 (0 : Byte)).length ≤ 255 ∧ FuncCode.readHoldingRegisters ≠ .readCoils ∧
    FuncCode.readCoils ≠ .readDiscreteInputs ∧ (List.replicate 255 (0 : Byte)).length = ceil8 2040 ∧
    (List.replicate 255 (0 : Byte)).length ≠ ceil8 2041 ∧ (List.replicate 127 (0 : Word)).length ≤ 127 ∧
    FuncCode.readCoils ≠ .readHoldingRegisters ∧ FuncCode.readCoils ≠ .readInputRegisters ∧
    some 127 = some (List.replicate 127 (0 : Word)).length ∧ 128 ≠ (List.replicate 127 (0 : Word)).length := by
  decide +kernel

theorem witness_ResponseWriteAndExceptionRows :
    FuncCode.readCoils ≠ .writeSingleCoil ∧ FuncCode.readCoils ≠ .writeSingleRegister ∧
    FuncCode.readCoils ≠ .writeMultipleCoils ∧ FuncCode.readCoils ≠ .writeMultipleRegisters := by decide

/-- The last slice in range and the first out of range, of one element and of none. -/
theorem witness_DS_READ_Result :
    storeA.StoreReady ∧ storeA.mem.len .hr < 8 + 1 ∧ storeA.mem.len .hr < 7 + 1 + 1 ∧
    7 + 1 ≤ storeA.mem.len .hr ∧ 7 + 1 + 0 ≤ storeA.mem.len .hr ∧ 6 + 1 + 1 ≤ storeA.mem.len .hr := by
  decide +kernel

theorem witness_DS_WRITE_Result :
    storeA.StoreReady ∧ (Values.regs [1]).fits .cd = false ∧ (Values.bits [true]).fits .id = true ∧
    storeA.mem.len .id < 4 + 1 ∧ storeA.mem.len .id < 3 + 1 + (Values.bits [true]).length ∧
    2 + 1 ≤ storeA.mem.len .id ∧ 2 + 1 + (Values.bits [true]).length ≤ storeA.mem.len .id := by decide +kernel

theorem witness_ReadAfterWrite :
    storeA.StoreReady ∧ (Values.regs [7]).fits .ir = true ∧
    1 + 1 + (Values.regs [7]).length ≤ storeA.mem.len .ir ∧
    nextIs (exec (.dsWrite .ir 1 (.regs [7])) storeA) (fun t => t.created && !t.dsBusy) = true := by decide +kernel

theorem witness_DS_CREATE_Result :
    (State.beforeCreation Cfg.default).created = false ∧ State.reset.created = true := by decide

theorem witness_DS_LOAD_Result :
    (State.beforeCreation Cfg.default).created = false ∧ storeA.created = true := by decide

theorem witness_DS_GROW_Result :
    storeA.StoreReady ∧ (Values.bits []).fits .id = true ∧ (Values.regs [9]).fits .hr = true ∧
    7 < storeA.mem.len .hr ∧ 0 < (Values.regs [9]).length := by decide +kernel

theorem witness_OBS_SUBSCRIBE_Result : State.reset.created = true := rfl

theorem witness_StoreRefusals :
    (State.beforeCreation Cfg.default).created = false ∧ (State.beforeCreation Cfg.default).mstate = .idle ∧
    (Instr.slaveStep [0x01, 0x01, 0x00]).fromWire = true ∧ (Instr.slaveStep [0x01, 0x01, 0x00]).wf = true ∧ ({ storeA with dsBusy := true }).dsBusy = true ∧
    ({ storeA with dsBusy := true }).created = true ∧ storeA.StoreReady ∧ (Values.bits []).fits .hr = false := by
  decide +kernel

/-- Quantities just outside and at their limits, and slices just out of and in range. -/
theorem witness_SlaveReadsBits :
    storeA.StoreReady ∧ (0 : Word).toNat < storeA.cfg.qtyReadCoils.min ∧
    storeA.cfg.qtyReadCoils.max < (2001 : Word).toNat ∧ storeA.cfg.qtyReadCoils.min ≤ (1 : Word).toNat ∧
    (2000 : Word).toNat ≤ storeA.cfg.qtyReadCoils.max ∧
    storeA.mem.cd.length < (0 : Word).toNat + 1 + (8 : Word).toNat ∧
    (0 : Word).toNat + 1 + (7 : Word).toNat ≤ storeA.mem.cd.length ∧ (7 : Word).toNat ≤ 2040 ∧
    (0 : Word).toNat < storeA.cfg.qtyReadDiscreteInputs.min ∧
    storeA.cfg.qtyReadDiscreteInputs.max < (2001 : Word).toNat ∧
    storeA.cfg.qtyReadDiscreteInputs.min ≤ (1 : Word).toNat ∧
    storeA.mem.id.length < (3 : Word).toNat + 1 + (1 : Word).toNat ∧
    (2 : Word).toNat + 1 + (1 : Word).toNat ≤ storeA.mem.id.length := by decide +kernel

theorem witness_SlaveReadsRegisters :
    storeA.StoreReady ∧ (0 : Word).toNat < storeA.cfg.qtyReadHoldingRegisters.min ∧
    storeA.cfg.qtyReadHoldingRegisters.max < (126 : Word).toNat ∧
    storeA.cfg.qtyReadHoldingRegisters.min ≤ (1 : Word).toNat ∧
    (125 : Word).toNat ≤ storeA.cfg.qtyReadHoldingRegisters.max ∧
    storeA.mem.hr.length < (6 : Word).toNat + 1 + (2 : Word).toNat ∧
    (6 : Word).toNat + 1 + (1 : Word).toNat ≤ storeA.mem.hr.length ∧ (1 : Word).toNat ≤ 127 ∧
    (0 : Word).toNat < storeA.cfg.qtyReadInputRegisters.min ∧
    storeA.cfg.qtyReadInputRegisters.max < (126 : Word).toNat ∧
    storeA.cfg.qtyReadInputRegisters.min ≤ (1 : Word).toNat ∧
    storeA.mem.ir.length < (2 : Word).toNat + 1 + (1 : Word).toNat ∧
    (1 : Word).toNat + 1 + (1 : Word).toNat ≤ storeA.mem.ir.length := by decide +kernel

theorem witness_SlaveWritesSingle :
    storeA.StoreReady ∧ storeA.mem.cd.length < (7 : Word).toNat + 2 ∧ (6 : Word).toNat + 2 ≤ storeA.mem.cd.length ∧
    (0x1234 : Word) ≠ 0xFF00 ∧ (0x1234 : Word) ≠ 0x0000 ∧ storeA.mem.hr.length < (7 : Word).toNat + 2 ∧
    (6 : Word).toNat + 2 ≤ storeA.mem.hr.length := by decide +kernel

theorem witness_SlaveWritesMultiple :
    storeA.StoreReady ∧ ([] : List Bool).length < storeA.cfg.qtyWriteMultipleCoils.min ∧
    storeA.cfg.qtyWriteMultipleCoils.max < (List.replicate 1969 true).length ∧
    (List.replicate 1969 true).length ≤ 2040 ∧ storeA.cfg.qtyWriteMultipleCoils.min ≤ [true].length ∧
    storeA.mem.cd.length < (7 : Word).toNat + 1 + [true].length ∧
    (6 : Word).toNat + 1 + [true].length ≤ storeA.mem.cd.length ∧
    ([] : List Word).length < storeA.cfg.qtyWriteMultipleRegisters.min ∧
    storeA.cfg.qtyWriteMultipleRegisters.max < (List.replicate 124 (0 : Word)).length ∧
    (List.replicate 124 (0 : Word)).length ≤ 127 ∧
    storeA.cfg.qtyWriteMultipleRegisters.min ≤ ([7] : List Word).length ∧
    storeA.mem.hr.length < (7 : Word).toNat + 1 + ([7] : List Word).length ∧
    (6 : Word).toNat + 1 + ([7] : List Word).length ≤ storeA.mem.hr.length := by decide +kernel

theorem witness_SlaveRejections :
    (0x07 : Byte) ∉ ([0x01, 0x02, 0x03, 0x04, 0x05, 0x06, 0x0F, 0x10] : List Byte) ∧ 128 ≤ (0x81 : Byte).toNat ∧
    decodeRequest [0x03, 0x00, 0x00] = .error .length ∧
    decodeRequest [0x0F, 0x00, 0x00, 0x00, 0x04, 0x02, 0x0F, 0x00] = .error .byteCount ∧
    (withCfg fun c => { c with malformedPolicy := .drop }).cfg.malformedPolicy = .drop ∧
    (withCfg fun c => { c with malformedPolicy := .drop }).created = true ∧ State.reset.created = true ∧
    State.reset.cfg.malformedPolicy = .exception 0x03 := by decide +kernel

theorem witness_SLAVE_EXEC_Result :
    decodeRequest [0x03, 0x00, 0x6B, 0x00, 0x03] = .ok (.readHoldingRegisters 0x006B 3) ∧ storeA.StoreReady ∧
    storeA.cfg.answersFit = true ∧ mbapState.cfg.answersFit = true := by decide +kernel

/-- A frame that fails, a unit id that is not answered, an answer that is none, and one that is a response; and the same
for an ASCII frame. -/
theorem witness_SLAVE_STEP_Result :
    State.reset.created = true ∧ (withCfg fun c => { c with unitFilter := 2 }).created = true ∧
    (withCfg fun c => { c with malformedPolicy := .drop }).created = true ∧
    State.reset.cfg.framing = .rtu ∧
    rtuUnframe State.reset.cfg [0x01, 0x01, 0x00] = .error (.ioError .length) ∧
    rtuUnframe State.reset.cfg [0x00, 0x00, 0x01, 0xB0] = .ok (0x00, [0x00]) ∧
    (withCfg fun c => { c with unitFilter := 2 }).cfg.unitFilter.getLsbD (0x00 : Byte).toNat = false ∧
    State.reset.cfg.unitFilter.getLsbD (0xFF : Byte).toNat = true ∧
    answers (exec (.slaveExec [0x03, 0x00]) (withCfg fun c => { c with malformedPolicy := .drop })) (.reply none)
      = true ∧
    answers (exec (.slaveExec [0x00]) State.reset) (.reply (some [0x80, 0x01])) = true := by decide +kernel

theorem witness_SLAVE_STEP_Result_ascii :
    (withCfg fun c => { c with framing := .ascii }).created = true ∧
    (withCfg fun c => { c with framing := .ascii }).cfg.framing = .ascii ∧
    ascUnframe (withCfg fun c => { c with framing := .ascii }).cfg
      [0x3A, 0x30, 0x31, 0x30, 0x31, 0x46, 0x45, 0x0D, 0x0A] = .ok (0x01, [0x01]) ∧
    ascUnframe (withCfg fun c => { c with framing := .ascii }).cfg [0x3A] = .error (.ioError .format) := by
  decide +kernel

theorem witness_SlaveStepUnderMbap :
    mbapState.created = true ∧
    mbapState.cfg.framing = .mbap ∧ mbapState.cfg.mbapPresent = true ∧
    mbapUnframe [0x00] = .error (.formatError .length) ∧
    mbapUnframe [0x00, 0x01, 0x00, 0x00, 0x00, 0x02, 0x05, 0x07] = .ok (1, 0x05, [0x07]) ∧
    answers (exec (.slaveExec [0x07]) mbapState) (.reply (some [0x87, 0x01])) = true ∧
    mbapState.cfg.unitFilter.getLsbD (0x05 : Byte).toNat = true := by decide +kernel

theorem witness_SlaveStepCompletes : storeA.StoreReady ∧ storeA.cfg.answersFit = true := by decide +kernel

/-- The three silent cases, and a reply. -/
theorem witness_SilenceInExactlyThreeCases :
    answers (exec (.slaveStep [0x01, 0x01, 0x00]) State.reset) (.reply none) = true ∧
    answers (exec (.slaveStep [0x00, 0x00, 0x01, 0xB0]) (withCfg fun c => { c with unitFilter := 2 })) (.reply none)
      = true ∧
    answers (exec (.slaveStep (rtuFrame 0x01 [0x03, 0x00])) (withCfg fun c => { c with malformedPolicy := .drop }))
      (.reply none) = true ∧
    answers (exec (.slaveStep [0x00, 0x00, 0x01, 0xB0]) State.reset) (.reply (some (rtuFrame 0x00 [0x80, 0x01])))
      = true := by decide +kernel

/-- Two states with one store that differ elsewhere. -/
theorem witness_SlaveIsStateless :
    ({ storeA with attempts := 3, rsp := some (.ok .unit) }).mem = storeA.mem ∧
    nextIs (exec (.slaveExec [0x06, 0x00, 0x06, 0xBE, 0xEF]) storeA) (fun t => t.mem != storeA.mem) = true ∧
    nextIs (exec (.slaveStep (rtuFrame 1 [0x06, 0x00, 0x06, 0xBE, 0xEF])) storeA) (fun t => t.slaveTx != [])
      = true := by decide +kernel

theorem witness_MASTER_EXECUTE_Result :
    State.reset.mstate = .idle ∧ State.reset.created = true ∧ mbapState.mstate = .idle ∧ mbapState.created = true ∧ (Request.readHoldingRegisters 3 3).sendable State.reset.cfg ∧
    (Request.writeMultipleRegisters 0 (List.replicate 123 0)).sendable mbapState.cfg := by decide +kernel

theorem witness_MasterGivesUpAfterItsRetries :
    State.reset.mstate = .idle ∧ State.reset.created = true ∧ (Request.readCoils 0 2).sendable State.reset.cfg ∧
    ∀ a ∈ [RxAnswer.timeout, .timeout], a = .timeout := by decide +kernel

theorem witness_MasterFollowsItsStateMachine :
    nextIs (exec (.masterExecute 0x11 (.readHoldingRegisters 3 3)) State.reset) (fun t => t.mtrace.length == 4)
      = true := by decide +kernel

theorem witness_MasterRefusesASecondRequest : ({ State.reset with mstate := .awaitingResponse }).mstate ≠ .idle := by
  decide

theorem reset_inv : State.reset.Inv :=
  ⟨⟨rfl, rfl, rfl, rfl⟩, rfl, .nil, .nil, fun _ h => (by cases h), fun _ h => (by cases h), rfl, rfl, fun h => (by cases h)⟩

/-- A state before creation that meets the invariant, in which a result has been given and a frame awaits the Master. -/
theorem witness_ResetIsCreation :
    State.Inv { State.beforeCreation Cfg.default with masterRx := [.timeout], rsp := some (.ok (.byte 0)) } ∧
    (State.beforeCreation Cfg.default).created = false :=
  ⟨⟨⟨rfl, rfl, rfl, rfl⟩, rfl, .nil, .nil, fun _ h => (by cases h), fun _ h => (by cases h), rfl, rfl, fun _ => rfl⟩,
    rfl⟩

/-- A state that meets the invariant, with a step that changes it. -/
theorem witness_StepKeepsTheInvariant :
    State.Inv { State.reset with pending := [.command 0x31 [.bank .ir, .nat 0, .values (.regs [7])]] } ∧
    nextIs (step { State.reset with pending := [.command 0x31 [.bank .ir, .nat 0, .values (.regs [7])]] })
      (fun t => t.mem.ir == [0, 7, 0, 0, 0]) = true :=
  ⟨⟨⟨rfl, rfl, rfl, rfl⟩, rfl, .nil, .nil, fun _ h => (by cases h), fun _ h => (by cases h), rfl, rfl, fun h => (by cases h)⟩,
    by decide +kernel⟩

theorem witness_StepOnlyExtends :
    State.reset.created = true ∧
    nextIs (step { State.reset with pending := [.command 0x34 [.bank .ir, .values (.regs [7])]] })
      (fun t => t.mem.len .ir == 6) = true := by decide +kernel

theorem witness_ErrorsHaveNoSideEffect :
    raises (exec (.dsWrite .ir 4 (.regs [7])) State.reset) (.outOfRange .ir 4 1) = true ∧
    raises (exec (.masterExecute 1 (.readCoils 0 2)) State.reset) .timeoutError = true := by decide +kernel

theorem witness_BanksChangeAsTheTableSays :
    nextIs (exec (.reqWriteSingleCoil 0 true) State.reset) (fun t => t.mem.cd != State.reset.mem.cd) = true ∧
    (Instr.reqWriteSingleCoil 0 true).changesBank .hr = false ∧
    (Instr.reqWriteSingleCoil 0 true).changesBank .cd = true := by decide +kernel

theorem witness_WireHasProtocolAccessOnly :
    (Instr.slaveExec [0x06, 0x00, 0x00, 0x00, 0x01]).fromWire = true ∧
    nextIs (exec (.slaveExec [0x06, 0x00, 0x00, 0x00, 0x01]) State.reset) (fun t => t.evtW.length == 1) = true := by
  decide +kernel

theorem witness_FramerAndCodecArePure :
    (Instr.lrc [0x01]).isPure = true ∧ State.reset.cfg = storeA.cfg ∧
    answers (exec (.lrc [0x01]) State.reset) (.byte 0xFF) = true := by decide +kernel

theorem witness_StepRunsTheDecodedInstruction :
    decode (.request [0x04, 0x00, 0x08, 0x00, 0x01]) = .ok (.reqReadInputRegisters 8 1) ∧
    State.reset.pending = [] ∧ decodeTableWord 8 0x32 = some .dsCreate := by decide +kernel

end Sys2Proof.Tests
end

/-! The family 10_state.md: what one operation can do to the state is said once (`Effect`, `exec_effect`), and the
invariant, the growth of the streams and the bank table are read off it by induction. -/

namespace Sys2Proof.Machine

/-! ### Operations that read CFG alone -/

/-- The outcomes of one operation from two states: the same result on the response port with nothing else changed, or
the same refusal. -/
inductive SameAnswer (s t : State) :
    Host.Outcome State Fault Refusal → Host.Outcome State Fault Refusal → Prop where
  | answer (x : Result) : SameAnswer s t (.next (s.answer x)) (.next (t.answer x))
  | refused (r : Refusal) : SameAnswer s t (.refused r) (.refused r)

theorem SameAnswer.settle {s t : State} {r r' : Except Error Value} (h : r = r') :
    SameAnswer s t (.next (s.settle r)) (.next (t.settle r')) := by
  subst h
  cases r with
  | ok v => exact .answer (.ok v)
  | error e => exact .answer (.error e)

theorem SameAnswer.ite {s t : State} {p q : Prop} [Decidable p] [Decidable q]
    {a b c d : Host.Outcome State Fault Refusal} (h : p ↔ q) (ha : SameAnswer s t a b) (hc : SameAnswer s t c d) :
    SameAnswer s t (if p then a else c) (if q then b else d) := by
  by_cases hp : p
  · rwa [if_pos hp, if_pos (h.1 hp)]
  · rwa [if_neg hp, if_neg (mt h.2 hp)]

/-- A framer, codec or response operation is a function of CFG (R35). -/
theorem exec_sameAnswer {i : Instr} {s t : State} (hp : i.isPure = true) (hc : s.cfg = t.cfg) :
    SameAnswer s t (exec i s) (exec i t) := by
  cases i with
  | crc16 => exact .answer _
  | lrc => exact .answer _
  | rtuFrame => exact .ite (by rw [hc]) (.answer _) (.refused _)
  | rtuUnframe => exact .settle (by rw [hc])
  | ascFrame => exact .ite (by rw [hc]) (.answer _) (.refused _)
  | ascUnframe => exact .settle (by rw [hc])
  | mbapFrame => exact .ite (by rw [hc]) (.refused _) (.ite (by rw [hc]) (.answer _) (.refused _))
  | mbapUnframe => exact .ite (by rw [hc]) (.refused _) (.settle rfl)
  | rspCheckExc => exact .ite .rfl (.refused _) (.settle rfl)
  | pduEncReq => exact .ite .rfl (.answer _) (.refused _)
  | pduDecReq => exact .settle rfl
  | pduEncRsp => exact .ite .rfl (.answer _) (.refused _)
  | pduDecRsp => exact .settle rfl
  | pduEncExc => exact .answer _
  | rspReadCoils => exact .ite .rfl (.refused _) (.settle rfl)
  | rspReadDiscreteInputs => exact .ite .rfl (.refused _) (.settle rfl)
  | rspReadHoldingRegisters => exact .ite .rfl (.refused _) (.settle rfl)
  | rspReadInputRegisters => exact .ite .rfl (.refused _) (.settle rfl)
  | rspWriteSingleCoil => exact .settle rfl
  | rspWriteSingleRegister => exact .settle rfl
  | rspWriteMultipleCoils => exact .settle rfl
  | rspWriteMultipleRegisters => exact .settle rfl
  | rspException => exact .answer _
  | _ => nomatch hp

/-- A framer, codec or response operation that ends in a next state has only answered. -/
theorem exec_pure_eq_answer {i : Instr} {s t : State} (hp : i.isPure = true) (h : exec i s = .next t) :
    ∃ x, t = s.answer x := by
  have hs := exec_sameAnswer hp (rfl : s.cfg = s.cfg)
  rw [h] at hs
  cases hs with
  | answer x => exact ⟨x, rfl⟩

/-! ### The DataStore commands -/

/-- The state after `DS.GROW` (R135), before its result. -/
abbrev growState (b : Bank) (vs : Values) (s : State) : State := (s.acquire.setMem (s.mem.grow b vs)).release

/-- What `DS.READ` can do (R131). -/
theorem execDsRead_cases {b : Bank} {start count : Nat} {s t : State} (h : execDsRead b start count s = .next t) :
    s.StoreReady ∧
    ((s.mem.len b < start + 1 + count ∧ t = s.raise (.outOfRange b start count)) ∨
     (start + 1 + count ≤ s.mem.len b ∧
      t = (readState b start count s).answer (.ok (.data (s.mem.read b (start + 1) count))))) := by
  obtain ⟨hr, h⟩ := storeGuard_bind (finish_eq_next.1 h)
  refine ⟨hr, ?_⟩
  by_cases hb : start + 1 + count ≤ s.mem.len b
  · rw [dsRead_inRange hb] at h
    cases h; exact .inr ⟨hb, rfl⟩
  · rw [dsRead_outOfRange (by omega)] at h
    cases h; exact .inl ⟨by omega, rfl⟩

/-- What `DS.WRITE` can do (R132). -/
theorem execDsWrite_cases {b : Bank} {start : Nat} {vs : Values} {s t : State}
    (h : execDsWrite b start vs s = .next t) :
    s.StoreReady ∧ vs.fits b = true ∧
    ((s.mem.len b < start + 1 + vs.length ∧ t = s.raise (.outOfRange b start vs.length)) ∨
     (start + 1 + vs.length ≤ s.mem.len b ∧ t = (writeState b start vs s).answer (.ok .unit))) := by
  obtain ⟨hr, h⟩ := storeGuard_bind (finish_eq_next.1 h)
  split at h
  · cases h
  · next hf =>
    refine ⟨hr, by simpa using hf, ?_⟩
    by_cases hb : start + 1 + vs.length ≤ s.mem.len b
    · rw [dsWrite_inRange hb] at h
      cases h; exact .inr ⟨hb, rfl⟩
    · rw [dsWrite_outOfRange (by omega)] at h
      cases h; exact .inl ⟨by omega, rfl⟩

/-- What `DS.GROW` can do (R135). -/
theorem execDsGrow_cases {b : Bank} {vs : Values} {s t : State} (h : execDsGrow b vs s = .next t) :
    s.StoreReady ∧ vs.fits b = true ∧ t = (growState b vs s).answer (.ok .unit) := by
  obtain ⟨hr, h⟩ := storeGuard_bind (finish_eq_next.1 h)
  split at h
  · cases h
  · next hf => cases h; exact ⟨hr, by simpa using hf, rfl⟩

/-- `DS.CREATE` ends in a next state exactly where the store does not exist (R133). -/
theorem execDsCreate_eq_next {s t : State} : execDsCreate s = .next t ↔
    s.created = false ∧ t = { s with mem := Memory.create s.cfg, created := true }.answer (.ok .unit) := by
  unfold execDsCreate
  cases s.created <;> simp [eq_comm]

/-- `DS.LOAD` ends in a next state exactly where the store does not exist (R134). -/
theorem execDsLoad_eq_next {cd id : List Bool} {hr ir : List Word} {s t : State} :
    execDsLoad cd id hr ir s = .next t ↔
    s.created = false ∧ t = { s with mem := Memory.load cd id hr ir, created := true }.answer (.ok .unit) := by
  unfold execDsLoad
  cases s.created <;> simp [eq_comm]

/-! ### How a request at the Master ends -/

/-- What the attempts of one request leave: only the Master's own state changed, Idle again with no request
outstanding, and every frame sent appended (R271; log entries 12, 17). -/
structure MasterEnds (s t : State) : Prop where
  frame : MasterFrame s t
  idle : t.mstate = .idle
  noReq : t.req = none
  sent : s.masterTx <+: t.masterTx

theorem masterDone_ends (s : State) (m : Response) : MasterEnds s (s.masterDone m) :=
  ⟨⟨rfl, rfl, rfl, rfl, rfl, rfl, rfl, rfl, rfl, rfl, rfl, rfl⟩, rfl, rfl, List.prefix_refl _⟩

theorem masterFail_ends (s : State) (e : Error) : MasterEnds s (s.masterFail e) :=
  ⟨⟨rfl, rfl, rfl, rfl, rfl, rfl, rfl, rfl, rfl, rfl, rfl, rfl⟩, rfl, rfl, List.prefix_refl _⟩

theorem goMaster_frame (s : State) (m : MState) : MasterFrame s (s.goMaster m) :=
  ⟨rfl, rfl, rfl, rfl, rfl, rfl, rfl, rfl, rfl, rfl, rfl, rfl⟩

/-- What follows an attempt is what the request comes to: the attempt itself only appends a frame (R271). -/
theorem MasterEnds.of_attempt {wire : List Byte} {unit : Byte} {expect : Expect} {s t : State}
    (h : MasterEnds (masterAttempt wire unit expect s).2 t) : MasterEnds s t := by
  obtain ⟨hf, htx, -⟩ := masterAttempt_spec wire unit expect s
  exact ⟨hf.trans h.frame, h.idle, h.noReq, .trans ⟨_, htx.symm⟩ h.sent⟩

theorem MasterEnds.of_goMaster {s t : State} {m : MState} (h : MasterEnds (s.goMaster m) t) : MasterEnds s t :=
  ⟨(goMaster_frame s m).trans h.frame, h.idle, h.noReq, h.sent⟩

theorem masterLoop_ends (wire : List Byte) (unit : Byte) (expect : Expect) (n : Nat) (s : State) :
    MasterEnds s (masterLoop wire unit expect n s) := by
  induction n generalizing s with
  | zero =>
    refine .of_attempt (wire := wire) (unit := unit) (expect := expect) ?_
    rw [masterLoop]
    obtain ⟨v, s'⟩ := masterAttempt wire unit expect s
    cases v with
    | done m => exact masterDone_ends s' m
    | retry e => exact masterFail_ends s' e
    | fail e => exact masterFail_ends s' e
  | succ n ih =>
    refine .of_attempt (wire := wire) (unit := unit) (expect := expect) ?_
    rw [masterLoop]
    obtain ⟨v, s'⟩ := masterAttempt wire unit expect s
    cases v with
    | done m => exact masterDone_ends s' m
    | fail e => exact masterFail_ends s' e
    | retry e =>
      dsimp only
      split
      · exact (ih _).of_goMaster
      · exact masterFail_ends s' e

/-! ### What an operation can do -/

/-- Everything an operation can do to the state, with the guard of each change: the writes go by the bank table (R25),
and only an answer and the creation happen without a store (R334). -/
inductive Effect (s : State) : Instr → State → Prop where
  | none {i} : Effect s i s
  | answer {i} {s' : State} (e : Effect s i s') (x : Result) : Effect s i (s'.answer x)
  | read {i} (b : Bank) (start count : Nat) (ready : s.StoreReady) (inRange : start + 1 + count ≤ s.mem.len b) :
    Effect s i (readState b start count s)
  | write {i : Instr} (b : Bank) (start : Nat) (vs : Values) (ready : s.StoreReady) (table : i.changesBank b = true)
    (fits : vs.fits b = true) (inRange : start + 1 + vs.length ≤ s.mem.len b) : Effect s i (writeState b start vs s)
  | reply {i} {s' : State} (e : Effect s i s') (created : s'.created = true) (wire : List Byte) :
    Effect s i (s'.slaveWrite wire)
  | create (created : s.created = false) :
    Effect s .dsCreate { s with mem := Memory.create s.cfg, created := true }
  | load (created : s.created = false) (cd id : List Bool) (hr ir : List Word) :
    Effect s (.dsLoad cd id hr ir) { s with mem := Memory.load cd id hr ir, created := true }
  | grow (b : Bank) (vs : Values) (ready : s.StoreReady) (fits : vs.fits b = true) :
    Effect s (.dsGrow b vs) (growState b vs s)
  | subscribeR (created : s.created = true) (o : Nat) :
    Effect s (.obsSubscribe .readFrom o) { s with obsR := insertObserver o s.obsR }
  | subscribeW (created : s.created = true) (o : Nat) :
    Effect s (.obsSubscribe .writtenTo o) { s with obsW := insertObserver o s.obsW }
  | master {s' : State} (unit : Byte) (m : Request) (created : s.created = true)
    (ends : MasterEnds (s.masterBegin m) s') : Effect s (.masterExecute unit m) s'

section
variable {i : Instr} {s s' t : State} {r : Option (List Byte)}

theorem slaveRead_effect {f : FuncCode} {b : Bank} {start q : Word}
    (h : slaveRead f b start q s = .ok (s', r)) : Effect s i s' := by
  rcases slaveRead_cases h with ⟨-, rfl, -⟩ | ⟨-, -, -, rfl, -⟩ | ⟨-, hr, hb, rfl, -⟩
  · exact .none
  · exact .none
  · exact .read _ _ _ hr hb

theorem slaveWrite_effect {f : FuncCode} {b : Bank} {start : Word} {vs : Values} {m : Response}
    (ht : i.changesBank b = true) (hf : vs.fits b = true) (h : slaveWrite f b start vs m s = .ok (s', r)) :
    Effect s i s' := by
  rcases slaveWrite_cases h with ⟨-, rfl, -⟩ | ⟨-, -, -, rfl, -⟩ | ⟨-, hr, hi, rfl, -⟩
  · exact .none
  · exact .none
  · exact .write _ _ _ hr ht hf hi

/-- A request row does to the store what its row of the bank table says (R25). -/
theorem slaveRequest_effect {m : Request} (h : slaveRequest m s = .ok (s', r)) : Effect s (.ofRequest m) s' := by
  cases m with
  | readCoils => exact slaveRead_effect h
  | readDiscreteInputs => exact slaveRead_effect h
  | readHoldingRegisters => exact slaveRead_effect h
  | readInputRegisters => exact slaveRead_effect h
  | writeSingleCoil a v =>
    exact slaveWrite_effect (f := .writeSingleCoil) (b := .cd) (start := a) (vs := .bits [v]) rfl rfl h
  | writeSingleRegister a v =>
    exact slaveWrite_effect (f := .writeSingleRegister) (b := .hr) (start := a) (vs := .regs [v]) rfl rfl h
  | writeMultipleCoils =>
    simp only [slaveRequest, slaveWriteMultipleCoils] at h
    split at h
    · cases h
    · exact slaveWrite_effect rfl rfl h
  | writeMultipleRegisters =>
    simp only [slaveRequest, slaveWriteMultipleRegisters] at h
    split at h
    · cases h
    · exact slaveWrite_effect rfl rfl h

/-- The store operation of a request is an effect of every instruction whose row writes CD and HR. -/
theorem StoreStep.effect (h : StoreStep s s') (hcd : i.changesBank .cd = true) (hhr : i.changesBank .hr = true) :
    Effect s i s' := by
  cases h with
  | none => exact .none
  | read b start count ready inRange => exact .read _ _ _ ready inRange
  | write b start vs ready fits wire inRange =>
    refine .write _ _ _ ready ?_ fits inRange
    rcases wire with rfl | rfl
    · exact hcd
    · exact hhr

theorem StoreStep.created (h : StoreStep s s') : s'.created = s.created := by
  cases h <;> simp

/-- What `SLAVE.STEP` can do (R240): at most one store operation, then at most one frame written. -/
theorem slaveStep_storeStep {wire : List Byte} (h : slaveStep wire s = .ok (s', r)) :
    ∃ s1, StoreStep s s1 ∧ (s' = s1 ∨ ∃ w, s' = s1.slaveWrite w) := by
  rcases slaveStep_cases h with ⟨rfl, -, -⟩ | ⟨tid, unit, pdu, s1, rsp, -, -, he, hrep⟩
  · exact ⟨_, .none, .inl rfl⟩
  · refine ⟨s1, slaveExec_storeStep he, ?_⟩
    rcases slaveReply_cases hrep with ⟨-, rfl, -⟩ | ⟨_, w, -, -, rfl, -⟩
    · exact .inl rfl
    · exact .inr ⟨w, rfl⟩

theorem answerSlave_effect {f : State → SlaveAnswer}
    (hf : ∀ {s' r}, s.created = true → f s = .ok (s', r) → Effect s i s') (h : answerSlave f s = .next t) :
    Effect s i t := by
  obtain ⟨hc, s1, rsp, h1, rfl⟩ := answerSlave_eq_next.1 h
  exact .answer (hf hc h1) _

theorem exec_ofRequest (m : Request) (s : State) : exec (.ofRequest m) s = answerSlave (slaveRequest m) s := by
  cases m <;> rfl

theorem exec_ofRequest_effect (m : Request) (h : exec (.ofRequest m) s = .next t) : Effect s (.ofRequest m) t := by
  rw [exec_ofRequest] at h
  exact answerSlave_effect (fun _ => slaveRequest_effect) h

theorem execReqUnsupported_effect {fc : Byte} (h : execReqUnsupported fc s = .next t) : Effect s i t := by
  unfold execReqUnsupported at h
  split at h
  · exact answerSlave_effect (fun _ h => by cases h; exact .none) h
  · cases h

theorem execSlaveExec_effect {pdu : List Byte} (h : execSlaveExec pdu s = .next t) :
    Effect s (.slaveExec pdu) t :=
  answerSlave_effect (fun _ h => (slaveExec_storeStep h).effect rfl rfl) h

theorem execSlaveStep_effect {wire : List Byte} (h : execSlaveStep wire s = .next t) :
    Effect s (.slaveStep wire) t := by
  refine answerSlave_effect (fun hc h => ?_) h
  obtain ⟨s1, hs, rfl | ⟨w, rfl⟩⟩ := slaveStep_storeStep h
  · exact hs.effect rfl rfl
  · exact .reply (hs.effect rfl rfl) (hs.created.trans hc) w

theorem execDsRead_effect {b : Bank} {start count : Nat} (h : execDsRead b start count s = .next t) :
    Effect s i t := by
  obtain ⟨hr, ⟨-, rfl⟩ | ⟨hb, rfl⟩⟩ := execDsRead_cases h
  · exact .answer .none _
  · exact .answer (.read _ _ _ hr hb) _

theorem execDsWrite_effect {b : Bank} {start : Nat} {vs : Values} (h : execDsWrite b start vs s = .next t) :
    Effect s (.dsWrite b start vs) t := by
  obtain ⟨hr, hf, ⟨-, rfl⟩ | ⟨hb, rfl⟩⟩ := execDsWrite_cases h
  · exact .answer .none _
  · exact .answer (.write _ _ _ hr (by simp [Instr.changesBank]) hf hb) _

theorem execObsSubscribe_effect {c : Channel} {o : Nat} (h : execObsSubscribe c o s = .next t) :
    Effect s (.obsSubscribe c o) t := by
  obtain ⟨hc, rfl⟩ := execObsSubscribe_eq_next.1 h
  cases c with
  | readFrom => exact .answer (.subscribeR hc o) _
  | writtenTo => exact .answer (.subscribeW hc o) _

/-- Whatever an instruction does is one of the effects. -/
theorem exec_effect (h : exec i s = .next t) : Effect s i t := by
  cases i with
  | reqReadCoils start q => exact exec_ofRequest_effect (.readCoils start q) h
  | reqReadDiscreteInputs start q => exact exec_ofRequest_effect (.readDiscreteInputs start q) h
  | reqReadHoldingRegisters start q => exact exec_ofRequest_effect (.readHoldingRegisters start q) h
  | reqReadInputRegisters start q => exact exec_ofRequest_effect (.readInputRegisters start q) h
  | reqWriteSingleCoil a v => exact exec_ofRequest_effect (.writeSingleCoil a v) h
  | reqWriteSingleRegister a v => exact exec_ofRequest_effect (.writeSingleRegister a v) h
  | reqWriteMultipleCoils start vs => exact exec_ofRequest_effect (.writeMultipleCoils start vs) h
  | reqWriteMultipleRegisters start vs => exact exec_ofRequest_effect (.writeMultipleRegisters start vs) h
  | reqUnsupported => exact execReqUnsupported_effect h
  | slaveExec => exact execSlaveExec_effect h
  | slaveStep => exact execSlaveStep_effect h
  | dsRead => exact execDsRead_effect h
  | dsWrite => exact execDsWrite_effect h
  | dsCreate =>
    obtain ⟨hc, rfl⟩ := execDsCreate_eq_next.1 h
    exact .answer (.create hc) _
  | dsLoad =>
    obtain ⟨hc, rfl⟩ := execDsLoad_eq_next.1 h
    exact .answer (.load hc ..) _
  | dsGrow =>
    obtain ⟨hr, hf, rfl⟩ := execDsGrow_cases h
    exact .answer (.grow _ _ hr hf) _
  | obsSubscribe => exact execObsSubscribe_effect h
  | masterExecute unit m =>
    obtain ⟨-, hc, -, wire, -, rfl⟩ := execMasterExecute_eq_next h
    exact .master unit m hc (masterLoop_ends ..)
  | _ =>
    obtain ⟨x, rfl⟩ := exec_pure_eq_answer rfl h
    exact .answer .none x

/-- What is presented and does not decode has no effect beyond those of `SLAVE.EXEC`. -/
theorem rejectOffer_effect {o : Offer} {e : DecodeError} (h : rejectOffer o e s = .next t) :
    ∃ pdu, Effect s (.slaveExec pdu) t := by
  rcases rejectOffer_cases h with ⟨pdu, f, hf, h⟩ | ⟨r, rfl⟩
  · refine ⟨pdu, answerSlave_effect (fun _ h => ?_) h⟩
    rcases hf with rfl | ⟨r, rfl⟩
    · exact (slaveExec_storeStep h).effect rfl rfl
    · rw [slaveRejected_state h]; exact .none
  · obtain ⟨x, hx⟩ := s.settle_eq r
    exact ⟨[], hx ▸ .answer .none x⟩

/-- A step idles, or takes the next operation presented and has the effect of an instruction. -/
theorem step_effect (h : step s = .next t) :
    t = s ∨ ∃ rest i, Effect { s with pending := rest } i t := by
  rcases step_cases h with ⟨-, rfl⟩ | ⟨o, rest, -, ⟨i, -, h⟩ | ⟨e, -, h⟩⟩
  · exact .inl rfl
  · exact .inr ⟨rest, i, exec_effect h⟩
  · obtain ⟨pdu, h⟩ := rejectOffer_effect h
    exact .inr ⟨rest, _, h⟩

end

/-! ### The invariant -/

theorem mem_insertObserver {o x : Nat} {l : List Nat} : x ∈ insertObserver o l ↔ x = o ∨ x ∈ l := by
  induction l with
  | nil => simp [insertObserver]
  | cons y rest ih =>
    unfold insertObserver
    split_ifs with h1 h2
    · simp
    · simp [h2]
    · simp [ih, or_left_comm]

/-- Registering an observer keeps the canonical form of the set (R29; log entry 10). -/
theorem insertObserver_pairwise {o : Nat} {l : List Nat} (h : l.Pairwise (· < ·)) :
    (insertObserver o l).Pairwise (· < ·) := by
  induction l with
  | nil => simp [insertObserver]
  | cons y rest ih =>
    obtain ⟨hy, hrest⟩ := List.pairwise_cons.1 h
    unfold insertObserver
    split_ifs with h1 h2
    · refine List.pairwise_cons.2 ⟨fun z hz => ?_, h⟩
      rcases List.mem_cons.1 hz with rfl | hz
      · exact h1
      · exact h1.trans (hy z hz)
    · exact h
    · refine List.pairwise_cons.2 ⟨fun z hz => ?_, ih hrest⟩
      rcases mem_insertObserver.1 hz with rfl | hz
      · omega
      · exact hy z hz

/-- An event of a bank is well formed exactly when its data are of the bank's element kind (R31). -/
theorem Event.wf_kindOf (b : Bank) (start : Nat) (vs : Values) :
    (⟨kindOf b, start, vs⟩ : Event).wf = vs.fits b := by
  cases b <;> cases vs <;> rfl

/-- A stream of well-formed events with one more. -/
theorem wf_append_event {l : List Event} {b : Bank} {start : Nat} {vs : Values} (h : ∀ e ∈ l, e.wf = true)
    (hf : vs.fits b = true) : ∀ e ∈ l ++ [⟨kindOf b, start, vs⟩], e.wf = true := by
  intro e he
  rcases List.mem_append.1 he with he | he
  · exact h e he
  · rw [List.mem_singleton.1 he, Event.wf_kindOf, hf]

theorem State.resetWith_inv (c : Cfg) : (State.resetWith c).Inv where
  mem := State.resetWith_mem_wf c
  notBusy := rfl
  obsR := .nil
  obsW := .nil
  evtR := by simp [State.resetWith]
  evtW := by simp [State.resetWith]
  idle := rfl
  noReq := rfl
  fresh := by simp [State.resetWith]

theorem State.beforeCreation_inv (c : Cfg) : (State.beforeCreation c).Inv :=
  { State.resetWith_inv c with
    mem := State.beforeCreation_mem_wf c
    fresh := fun _ => rfl }

section
variable {i : Instr} {s t : State}

/-- Taking an operation off the list keeps the invariant. -/
theorem State.Inv.setPending (h : s.Inv) (rest : List Offer) : State.Inv { s with pending := rest } :=
  { h with fresh := fun hc => congrArg (fun u : State => { u with pending := rest }) (h.fresh hc) }

theorem State.Inv.answer (h : s.Inv) (x : Result) : (s.answer x).Inv :=
  { h with fresh := fun hc => congrArg (fun u : State => u.answer x) (h.fresh hc) }

theorem State.Inv.slaveWrite (h : s.Inv) (hc : s.created = true) (wire : List Byte) : (s.slaveWrite wire).Inv :=
  { h with fresh := by simp [hc] }

theorem State.Inv.read (h : s.Inv) (hr : s.StoreReady) (b : Bank) (start count : Nat) :
    (readState b start count s).Inv := by
  rw [readState_eq hr.2]
  exact { h with
    evtR := wf_append_event h.evtR (s.mem.read_fits b _ _)
    fresh := by simp [hr.1] }

theorem State.Inv.write (h : s.Inv) (hr : s.StoreReady) {b : Bank} {vs : Values} (hf : vs.fits b = true)
    (start : Nat) : (writeState b start vs s).Inv := by
  rw [writeState_eq hr.2]
  exact { h with
    mem := Memory.write_wf h.mem b (by omega) vs
    evtW := wf_append_event h.evtW hf
    fresh := by simp [hr.1] }

/-- The creation of the store keeps the invariant when the new banks have their sentinels (R133, R134). -/
theorem State.Inv.create (h : s.Inv) {m : Memory} (hm : m.wf) : State.Inv { s with mem := m, created := true } :=
  { h with mem := hm, fresh := by simp }

theorem State.Inv.grow (h : s.Inv) (hr : s.StoreReady) (b : Bank) (vs : Values) : (growState b vs s).Inv :=
  { h with
    mem := Memory.grow_wf h.mem b vs
    notBusy := rfl
    fresh := by simp [hr.1] }

theorem State.Inv.masterEnds (h : s.Inv) (hc : s.created = true) {m : Request}
    (he : MasterEnds (s.masterBegin m) t) : t.Inv := by
  obtain ⟨hf, hidle, hreq, -⟩ := he
  exact {
    mem := hf.mem ▸ h.mem
    notBusy := hf.dsBusy.trans h.notBusy
    obsR := hf.obsR ▸ h.obsR
    obsW := hf.obsW ▸ h.obsW
    evtR := hf.evtR ▸ h.evtR
    evtW := hf.evtW ▸ h.evtW
    idle := hidle
    noReq := hreq
    fresh := fun hn => by rw [hf.created.trans hc] at hn; cases hn }

/-- Every effect keeps the invariant. -/
theorem Effect.inv (e : Effect s i t) (h : s.Inv) : t.Inv := by
  induction e with
  | none => exact h
  | answer _ x ih => exact ih.answer x
  | read b start count ready => exact h.read ready b start count
  | write b start vs ready _ fits => exact h.write ready fits start
  | reply _ created wire ih => exact ih.slaveWrite created wire
  | create => exact h.create (Memory.create_wf _)
  | load => exact h.create (Memory.load_wf ..)
  | grow b vs ready => exact h.grow ready b vs
  | subscribeR created => exact { h with obsR := insertObserver_pairwise h.obsR, fresh := by simp [created] }
  | subscribeW created => exact { h with obsW := insertObserver_pairwise h.obsW, fresh := by simp [created] }
  | master unit m created ends => exact h.masterEnds created ends

/-- Settles O54: every effect keeps the invariant, and a step idles or has an effect. -/
theorem stepKeepsTheInvariant : Obligations.StepKeepsTheInvariant := by
  intro s t hi h
  rcases step_effect h with rfl | ⟨rest, i, e⟩
  · exact hi
  · exact e.inv (hi.setPending rest)

/-- Settles O53: the reset state and the state before creation, field by field. -/
theorem invariantAtReset : Obligations.InvariantAtReset :=
  ⟨State.resetWith_inv _, fun c => ⟨State.resetWith_inv c, State.beforeCreation_inv c⟩⟩

/-! ### What no operation on a created store undoes -/

theorem State.Extends.refl (h : s.created = true) : s.Extends s where
  cfg := rfl
  created := h
  len _ := Nat.le_refl _
  evtR := List.prefix_refl _
  evtW := List.prefix_refl _
  slaveTx := List.prefix_refl _
  masterTx := List.prefix_refl _

/-- Every effect on a created store only extends it. -/
theorem Effect.extends (e : Effect s i t) (h : s.created = true) : s.Extends t := by
  have hs := State.Extends.refl h
  induction e with
  | none => exact hs
  | answer _ x ih => exact { ih with }
  | read b start count => exact { hs with evtR := List.prefix_append _ _ }
  | write b start vs _ _ _ inRange =>
    exact { hs with
      len := fun c => (Memory.write_len inRange c).ge
      evtW := List.prefix_append _ _ }
  | reply _ _ wire ih => exact { ih with slaveTx := ih.slaveTx.trans (List.prefix_append _ _) }
  | create created => simp [h] at created
  | load created => simp [h] at created
  | grow b vs _ fits =>
    refine { hs with len := fun c => ?_ }
    simp only [State.release_mem, State.setMem_mem, Memory.grow_len fits c]
    split <;> omega
  | subscribeR => exact { hs with }
  | subscribeW => exact { hs with }
  | master unit m _ ends =>
    obtain ⟨hf, -, -, hsent⟩ := ends
    exact {
      cfg := hf.cfg
      created := hf.created.trans h
      len := fun b => by rw [hf.mem]; exact Nat.le_refl _
      evtR := by rw [hf.evtR]; exact List.prefix_refl _
      evtW := by rw [hf.evtW]; exact List.prefix_refl _
      slaveTx := by rw [hf.slaveTx]; exact List.prefix_refl _
      masterTx := hsent }

/-- Settles O55: `Effect.extends`, as a step idles or has an effect. -/
theorem stepOnlyExtends : Obligations.StepOnlyExtends := by
  intro s t hc h
  rcases step_effect h with rfl | ⟨rest, i, e⟩
  · exact .refl hc
  · exact { e.extends hc with }

/-! ### The bank table -/

theorem Memory.write_bank_of_ne {m : Memory} {b c : Bank} {k : Nat} {vs : Values} (h : c ≠ b) :
    (m.write b k vs).bank c = m.bank c := by
  cases b <;> cases vs <;> cases c <;> simp [Memory.write, Memory.bank] at h ⊢

theorem Memory.grow_bank_of_ne {m : Memory} {b c : Bank} {vs : Values} (h : c ≠ b) :
    (m.grow b vs).bank c = m.bank c := by
  cases b <;> cases vs <;> cases c <;> simp [Memory.grow, Memory.bank] at h ⊢

/-- A bank that the instruction's row of R25 does not write is unchanged. -/
theorem Effect.bank_eq (e : Effect s i t) {b : Bank} (h : i.changesBank b = false) : t.mem.bank b = s.mem.bank b := by
  induction e with
  | none => rfl
  | answer _ _ ih => exact ih h
  | read => rfl
  | write c start vs _ table => exact Memory.write_bank_of_ne (by rintro rfl; simp [table] at h)
  | reply _ _ _ ih => exact ih h
  | create => simp [Instr.changesBank] at h
  | load => simp [Instr.changesBank] at h
  | grow c vs => exact Memory.grow_bank_of_ne (by rintro rfl; simp [Instr.changesBank] at h)
  | subscribeR => rfl
  | subscribeW => rfl
  | master _ _ _ ends => rw [ends.frame.mem]; rfl

/-- Only the administrative operations change a length (R23, R25). -/
theorem Effect.len_eq (e : Effect s i t) (b : Bank) (hg : ∀ c vs, i ≠ .dsGrow c vs) (hc : i ≠ .dsCreate)
    (hl : ∀ cd id hr ir, i ≠ .dsLoad cd id hr ir) : t.mem.len b = s.mem.len b := by
  induction e with
  | none => rfl
  | answer _ _ ih => exact ih hg hc hl
  | read => rfl
  | write _ _ _ _ _ _ inRange => exact Memory.write_len inRange b
  | reply _ _ _ ih => exact ih hg hc hl
  | create => exact absurd rfl hc
  | load => exact absurd rfl (hl _ _ _ _)
  | grow => exact absurd rfl (hg _ _)
  | subscribeR => rfl
  | subscribeW => rfl
  | master _ _ _ ends => rw [ends.frame.mem]; rfl

end

/-- Settles O57: read off the effects of an instruction. -/
theorem banksChangeAsTheTableSays : Obligations.BanksChangeAsTheTableSays :=
  fun _ _ _ b h => ⟨(exec_effect h).bank_eq, (exec_effect h).len_eq b⟩

/-- Settles O59: two states with one CFG give the same answer. -/
theorem framerAndCodecArePure : Obligations.FramerAndCodecArePure := by
  intro i s t s' hp hc h
  have hs := exec_sameAnswer hp hc
  generalize exec i t = y at hs ⊢
  rw [h] at hs
  cases hs with
  | answer x => exact ⟨rfl, rfl⟩

/-! ### The slave keeps no state -/

/-- A store operation changes the banks and the event streams alone. -/
theorem StoreStep.frame {s s' : State} (h : StoreStep s s') :
    s' = { s with mem := s'.mem, evtR := s'.evtR, evtW := s'.evtW } := by
  cases h with
  | none => rfl
  | read b start count ready => rw [readState_eq ready.2]
  | write b start vs ready => rw [writeState_eq ready.2]

/-- All that the slave reads is the same in both states (R33). -/
structure SameStore (s t : State) : Prop where
  cfg : s.cfg = t.cfg
  mem : s.mem = t.mem
  created : s.created = t.created
  dsBusy : s.dsBusy = t.dsBusy

/-- Two answers of the slave with one response PDU and the same banks after it, or one refusal. -/
inductive SameReply : SlaveAnswer → SlaveAnswer → Prop where
  | ok {s' t' : State} (mem : s'.mem = t'.mem) (r : Option (List Byte)) : SameReply (.ok (s', r)) (.ok (t', r))
  | error (e : Refusal) : SameReply (.error e) (.error e)

section
variable {s t : State} (h : SameStore s t)
include h

theorem SameStore.storeGuard_eq : storeGuard s = storeGuard t := by
  simp only [storeGuard, h.created, h.dsBusy]

theorem SameStore.guarded {k l : SlaveAnswer} (hk : SameReply k l) :
    SameReply (storeGuard s >>= fun _ => k) (storeGuard t >>= fun _ => l) := by
  rw [h.storeGuard_eq]
  cases storeGuard t with
  | error e => exact .error e
  | ok u => exact hk

theorem SameStore.slaveRead (f : FuncCode) (b : Bank) (start q : Word) :
    SameReply (slaveRead f b start q s) (slaveRead f b start q t) := by
  unfold Machine.slaveRead
  rw [h.cfg]
  split
  · exact .ok h.mem _
  · refine h.guarded ?_
    have hl : s.mem.len b = t.mem.len b := by rw [h.mem]
    by_cases hb : start.toNat + 1 + q.toNat ≤ t.mem.len b
    · rw [dsRead_inRange (s := s) (by omega), dsRead_inRange hb, h.mem]
      dsimp only
      split
      · exact .error _
      · split
        · exact .ok (by simp [h.mem]) _
        · exact .error _
    · rw [dsRead_outOfRange (s := s) (by omega), dsRead_outOfRange (s := t) (by omega)]
      exact .ok h.mem _

theorem SameStore.slaveWrite (f : FuncCode) (b : Bank) (start : Word) (vs : Values) (m : Response) :
    SameReply (slaveWrite f b start vs m s) (slaveWrite f b start vs m t) := by
  unfold Machine.slaveWrite
  rw [h.cfg]
  split
  · exact .ok h.mem _
  · refine h.guarded ?_
    have hl : s.mem.len b = t.mem.len b := by rw [h.mem]
    by_cases hb : start.toNat + 1 + vs.length ≤ t.mem.len b
    · rw [dsWrite_inRange (s := s) (by omega), dsWrite_inRange hb]
      exact .ok (by simp [h.mem]) _
    · rw [dsWrite_outOfRange (s := s) (by omega), dsWrite_outOfRange (s := t) (by omega)]
      exact .ok h.mem _

theorem SameStore.slaveRequest (m : Request) : SameReply (slaveRequest m s) (slaveRequest m t) := by
  cases m with
  | readCoils => exact h.slaveRead ..
  | readDiscreteInputs => exact h.slaveRead ..
  | readHoldingRegisters => exact h.slaveRead ..
  | readInputRegisters => exact h.slaveRead ..
  | writeSingleCoil a v => exact h.slaveWrite .writeSingleCoil .cd a (.bits [v]) _
  | writeSingleRegister a v => exact h.slaveWrite .writeSingleRegister .hr a (.regs [v]) _
  | writeMultipleCoils =>
    simp only [Machine.slaveRequest, slaveWriteMultipleCoils]
    split
    · exact .error _
    · exact h.slaveWrite ..
  | writeMultipleRegisters =>
    simp only [Machine.slaveRequest, slaveWriteMultipleRegisters]
    split
    · exact .error _
    · exact h.slaveWrite ..

theorem SameStore.slaveMalformed (fc : Byte) : SameReply (slaveMalformed fc s) (slaveMalformed fc t) := by
  unfold Machine.slaveMalformed
  rw [h.cfg]
  split
  · exact .ok h.mem _
  · exact .ok h.mem _

theorem SameStore.slaveRejected (pdu : List Byte) (r : FormatReason) :
    SameReply (slaveRejected pdu r s) (slaveRejected pdu r t) := by
  cases r with
  | empty => exact .error _
  | function fc =>
    simp only [Machine.slaveRejected, slaveUnsupported, h.cfg]
    exact .ok h.mem _
  | coilValue v =>
    simp only [Machine.slaveRejected, h.cfg]
    exact .ok h.mem _
  | length => exact h.slaveMalformed _
  | byteCount => exact h.slaveMalformed _
  | protocol => exact h.slaveMalformed _
  | unit asked got => exact h.slaveMalformed _

/-- `SLAVE.EXEC` is a function of CFG and the store (R33, R241). -/
theorem SameStore.slaveExec (pdu : List Byte) : SameReply (slaveExec pdu s) (slaveExec pdu t) := by
  unfold Machine.slaveExec
  split
  · exact h.slaveRequest _
  · exact h.slaveRejected _ _

end

/-- Settles O47: the frames of SLAVE.EXEC and SLAVE.STEP from their store operation, and the answer from `SameStore`. -/
theorem slaveIsStateless : Obligations.SlaveIsStateless := by
  refine ⟨fun pdu s t h => ?_, fun wire s t h => ?_, fun pdu s t s' hcfg hmem hcr hbusy h => ?_⟩
  · obtain ⟨-, s1, rsp, h1, rfl⟩ := answerSlave_eq_next.1 h
    rw [(slaveExec_storeStep h1).frame]; rfl
  · obtain ⟨-, s', rsp, h1, rfl⟩ := answerSlave_eq_next.1 h
    obtain ⟨s1, hs, rfl | ⟨w, rfl⟩⟩ := slaveStep_storeStep h1
    · rw [hs.frame]; rfl
    · rw [hs.frame]; rfl
  · obtain ⟨hc, s1, rsp, h1, rfl⟩ := answerSlave_eq_next.1 h
    have hr := SameStore.slaveExec ⟨hcfg, hmem, hcr, hbusy⟩ pdu
    rw [h1] at hr
    generalize ht : slaveExec pdu t = y at hr
    cases hr with
    | ok mem => exact ⟨_, answerSlave_eq_next.2 ⟨hcr ▸ hc, _, rsp, ht, rfl⟩, rfl, mem.symm⟩

/-! ### Reset and the step -/

/-- Settles O35: every field of the reset state, and `DS.LOAD` from the state before creation. -/
theorem resetValues : Obligations.ResetValues := by
  intro c
  have len {α : Type} (x : α) (n : Nat) : (x :: List.replicate n x).length = n + 1 := by simp
  exact ⟨rfl, rfl, rfl, rfl, len _ _, len _ _, len _ _, len _ _, rfl, rfl, rfl, rfl, rfl, rfl, rfl, rfl, rfl,
    fun _ _ _ _ => execDsLoad_eq_next.2 ⟨rfl, rfl⟩⟩

/-- Settles O60: a step on a list that is empty, and on one with an operation that decodes. -/
theorem stepRunsTheDecodedInstruction : Obligations.StepRunsTheDecodedInstruction := by
  refine ⟨fun s o rest i hp hd => ?_, fun s => step_nil, fun s nbits w i hd => ?_⟩
  · rw [step_cons hp, hd]
  · have hd : decode (tableOffer nbits w) = .ok i := by
      unfold decodeTableWord at hd
      cases hdec : decode (tableOffer nbits w) with
      | ok j => rw [hdec] at hd; cases hd; rfl
      | error e => rw [hdec] at hd; cases hd
    rw [step_cons (s := s.withFetchWord nbits w) rfl, hd]
    rfl

end Sys2Proof.Machine

namespace Sys2Proof

/-! ### Memory layout -/

/-- Settles O5: past the end of the list the element that `packBits_getLsbD` names is the default 0. -/
theorem bitsArePackedLowestFirst : Obligations.BitsArePackedLowestFirst := by
  refine ⟨fun bits => ⟨packBits_length bits, fun j i hi => ?_⟩,
    fun bytes q => ⟨unpackBits_length bytes q, fun _ hk => unpackBits_getElem? bytes hk⟩⟩
  rw [packBits_getLsbD bits j hi]
  split
  · rfl
  · next hpast => exact List.getD_eq_default _ _ (Nat.le_of_not_lt hpast)

end Sys2Proof

/-! The family 30_encoding.md: the decoder reads back what the encoder writes, format by format and then for every row of
the opcode table; and the hex digits of the ASCII framing. -/

namespace Sys2Proof

/-! ### What the decoders read after a function code -/

/-- The tests of R188 pass on what R187 writes. -/
theorem countedRegs_encodeRegs {vs : List Word} (h : vs.length ≤ 127) :
    countedRegs (BitVec.ofNat 8 (2 * vs.length) :: encodeRegs vs) = .ok vs := by
  have hlen : (encodeRegs vs).length = 2 * vs.length := encodeRegs_length vs
  rw [countedRegs, ← hlen, countedData_eq (by omega)]
  simp

/-- The byte count of R165 fits the quantity and the data, so the tests of R166 pass. -/
theorem decodeWriteMultipleCoils_encode (start : Word) {bits : List Bool} (h : bits.length ≤ 2040) :
    decodeWriteMultipleCoils (be16 start ++ be16 (BitVec.ofNat 16 bits.length)
      ++ BitVec.ofNat 8 (ceil8 bits.length) :: packBits bits) = .ok (.writeMultipleCoils start bits) := by
  have hn : (BitVec.ofNat 16 bits.length).toNat = bits.length := ofNat16_toNat (by omega)
  have hc : (BitVec.ofNat 8 (ceil8 bits.length)).toNat = ceil8 bits.length := ofNat8_toNat (ceil8_le h)
  simp only [be16, List.cons_append, List.nil_append, decodeWriteMultipleCoils, u16be_hi_lo, hn, hc, packBits_length,
    ne_eq, not_true_eq_false, if_false, unpackBits_packBits]

/-- The byte count of R167 fits the quantity and the data, so the tests of R168 pass. -/
theorem decodeWriteMultipleRegisters_encode (start : Word) {vs : List Word} (h : vs.length ≤ 127) :
    decodeWriteMultipleRegisters (be16 start ++ be16 (BitVec.ofNat 16 vs.length)
      ++ BitVec.ofNat 8 (2 * vs.length) :: encodeRegs vs) = .ok (.writeMultipleRegisters start vs) := by
  have hn : (BitVec.ofNat 16 vs.length).toNat = vs.length := ofNat16_toNat (by omega)
  have hc : (BitVec.ofNat 8 (2 * vs.length)).toNat = 2 * vs.length := ofNat8_toNat (by omega)
  simp only [be16, List.cons_append, List.nil_append, decodeWriteMultipleRegisters, u16be_hi_lo, hn, hc,
    encodeRegs_length, ne_eq, not_true_eq_false, if_false, decodeRegs_encodeRegs]

theorem map_twoWords_be16 {α : Type} (f : Word → Word → α) (v w : Word) :
    (twoWords (be16 v ++ be16 w)).map (fun p => f p.1 p.2) = .ok (f v w) := by
  rw [twoWords_be16]; rfl

/-! ### Requests -/

/-- A well-formed request survives encoding (R169). -/
theorem decodeRequest_encodeRequest {m : Request} (h : m.wf = true) : decodeRequest (encodeRequest m) = .ok m := by
  cases m with
  | readCoils start q => exact map_twoWords_be16 Request.readCoils start q
  | readDiscreteInputs start q => exact map_twoWords_be16 Request.readDiscreteInputs start q
  | readHoldingRegisters start q => exact map_twoWords_be16 Request.readHoldingRegisters start q
  | readInputRegisters start q => exact map_twoWords_be16 Request.readInputRegisters start q
  | writeSingleCoil address value => exact congrArg (Except.map _) (coilFields_be16 address value)
  | writeSingleRegister address value => exact map_twoWords_be16 Request.writeSingleRegister address value
  | writeMultipleCoils start values => exact decodeWriteMultipleCoils_encode start (of_decide_eq_true h)
  | writeMultipleRegisters start values => exact decodeWriteMultipleRegisters_encode start (of_decide_eq_true h)

theorem encode_ofRequest (m : Request) : encode (.ofRequest m) = .request (encodeRequest m) := by
  cases m <;> rfl

theorem decode_encode_ofRequest (m : Request) (h : m.wf = true) :
    decode (encode (.ofRequest m)) = .ok (.ofRequest m) := by
  rw [encode_ofRequest, decode, decodeRequestOffer, decodeRequest_encodeRequest h]

/-- A function code outside the eight is read as the default row (R99). -/
theorem decode_unsupported {fc : Byte} (h : unsupportedByte fc = true) (rest : List Byte) :
    decode (.request (fc :: rest)) = .ok (.reqUnsupported fc) := by
  rw [decode, decodeRequestOffer, decodeRequest, FuncCode.ofByte?_eq_none.2 h]

/-! ### Responses -/

/-- A response PDU with a supported function code is read by the row of that code (R182). -/
theorem decode_response_of_row (f : FuncCode) {rest : List Byte} {e : Expect} {i : Instr}
    (h : decodeResponseRow f e rest = .ok i) : decode (.response (f.toByte :: rest) e) = .ok i := by
  simp [decode, decodeResponseOffer, h, Except.mapError]

theorem exceptionBit_or (fc : Byte) : exceptionBit (fc ||| 0x80) = true := by
  simp [exceptionBit]

theorem or_and_of_exceptionBit_false {fc : Byte} (h : exceptionBit fc = false) : (fc ||| 0x80) &&& 0x7F = fc := by
  revert fc; decide +kernel

/-- Setting the exception bit loses nothing of a code that has it clear (R97). -/
theorem decode_encodeException {fc : Byte} (h : exceptionBit fc = false) (code : Byte) (e : Expect) :
    decode (.response (encodeException fc code) e) = .ok (.rspException fc code) := by
  simp only [decode, encodeException, decodeResponseOffer, exceptionBit_or, if_true, or_and_of_exceptionBit_false h]

/-! ### The opcode table -/

/-- Settles O1, by the row: a request and a response through the lemmas on their formats, a command by the operands it
is presented with. -/
theorem decodeOfEncode : Obligations.DecodeOfEncode := by
  intro i h
  cases i with
  | reqReadCoils start q => exact decode_encode_ofRequest (.readCoils start q) h
  | reqReadDiscreteInputs start q => exact decode_encode_ofRequest (.readDiscreteInputs start q) h
  | reqReadHoldingRegisters start q => exact decode_encode_ofRequest (.readHoldingRegisters start q) h
  | reqReadInputRegisters start q => exact decode_encode_ofRequest (.readInputRegisters start q) h
  | reqWriteSingleCoil a v => exact decode_encode_ofRequest (.writeSingleCoil a v) h
  | reqWriteSingleRegister a v => exact decode_encode_ofRequest (.writeSingleRegister a v) h
  | reqWriteMultipleCoils start vs => exact decode_encode_ofRequest (.writeMultipleCoils start vs) h
  | reqWriteMultipleRegisters start vs => exact decode_encode_ofRequest (.writeMultipleRegisters start vs) h
  | reqUnsupported fc => exact decode_unsupported h []
  | rspReadCoils e data =>
    exact decode_response_of_row .readCoils (congrArg (Except.map _) (countedData_eq (of_decide_eq_true h)))
  | rspReadDiscreteInputs e data =>
    exact decode_response_of_row .readDiscreteInputs (congrArg (Except.map _) (countedData_eq (of_decide_eq_true h)))
  | rspReadHoldingRegisters e vs =>
    exact decode_response_of_row .readHoldingRegisters
      (congrArg (Except.map _) (countedRegs_encodeRegs (of_decide_eq_true h)))
  | rspReadInputRegisters e vs =>
    exact decode_response_of_row .readInputRegisters
      (congrArg (Except.map _) (countedRegs_encodeRegs (of_decide_eq_true h)))
  | rspWriteSingleCoil e a v =>
    exact decode_response_of_row .writeSingleCoil (congrArg (Except.map _) (coilFields_be16 a v))
  | rspWriteSingleRegister e a v =>
    exact decode_response_of_row .writeSingleRegister (map_twoWords_be16 (Instr.rspWriteSingleRegister e) a v)
  | rspWriteMultipleCoils e start q =>
    exact decode_response_of_row .writeMultipleCoils (map_twoWords_be16 (Instr.rspWriteMultipleCoils e) start q)
  | rspWriteMultipleRegisters e start q =>
    exact decode_response_of_row .writeMultipleRegisters (map_twoWords_be16 (Instr.rspWriteMultipleRegisters e) start q)
  | rspException fc code => exact decode_encodeException (by simpa [Instr.wf, exceptionBit] using h) code _
  -- the 23 host commands (R103)
  | _ => rfl

/-- Settles O4: the decoder evaluated on the ten words. -/
theorem writtenOutWordsDecode : Obligations.WrittenOutWordsDecode := by
  unfold Obligations.WrittenOutWordsDecode
  decide +kernel

end Sys2Proof

namespace Sys2Proof.Machine

/-! ### Hexadecimal -/

theorem hexChar_toNat_of_le_nine {d : Byte} (h : d.toNat ≤ 9) : (hexChar d).toNat = 0x30 + d.toNat := by
  rw [hexChar, if_pos (by omega)]; bv_omega

theorem hexChar_toNat_of_ten_le {d : Byte} (h : 10 ≤ d.toNat) (h' : d.toNat ≤ 15) :
    (hexChar d).toNat = 0x41 + (d.toNat - 10) := by
  rw [hexChar, if_neg (by omega)]; bv_omega

/-- The digits and their values (R101): the three ranges of `HEXVAL` are what `HEXCHAR` writes below 10, what it writes
from 10, and the lowercase letters. -/
theorem hexVal_eq_some {lower : Bool} {c v : Byte} : hexVal lower c = some v ↔
    v.toNat ≤ 15 ∧ (c = hexChar v ∨ (lower = true ∧ 10 ≤ v.toNat ∧ c.toNat = 0x61 + (v.toNat - 10))) := by
  constructor
  · intro h
    unfold hexVal at h
    split_ifs at h with hd hu hl
    · obtain rfl := Option.some.inj h
      refine ⟨by bv_omega, .inl (BitVec.eq_of_toNat_eq ?_)⟩
      rw [hexChar_toNat_of_le_nine (by bv_omega)]; bv_omega
    · obtain rfl := Option.some.inj h
      refine ⟨by bv_omega, .inl (BitVec.eq_of_toNat_eq ?_)⟩
      rw [hexChar_toNat_of_ten_le (by bv_omega) (by bv_omega)]; bv_omega
    · obtain rfl := Option.some.inj h
      exact ⟨by bv_omega, .inr ⟨hl.1, by bv_omega, by bv_omega⟩⟩
  · rintro ⟨hv, rfl | ⟨rfl, h10, hc⟩⟩
    · by_cases h9 : v.toNat ≤ 9
      · have hc := hexChar_toNat_of_le_nine h9
        rw [hexVal, if_pos (by omega)]
        congr 1; bv_omega
      · have hc := hexChar_toNat_of_ten_le (by omega) hv
        rw [hexVal, if_neg (by omega), if_pos (by omega)]
        congr 1; bv_omega
    · rw [hexVal, if_neg (by omega), if_neg (by omega), if_pos ⟨rfl, by omega, by omega⟩]
      congr 1; bv_omega

theorem hexVal_le {lower : Bool} {c v : Byte} (h : hexVal lower c = some v) : v.toNat ≤ 15 := (hexVal_eq_some.1 h).1

/-- The two digits of a byte, high first (R102). -/
theorem hexEncode_cons (b : Byte) (bs : List Byte) : hexEncode (b :: bs)
    = hexChar (BitVec.ofNat 8 (b.toNat / 16)) :: hexChar (BitVec.ofNat 8 (b.toNat % 16)) :: hexEncode bs := by
  have hhi : b >>> 4 = BitVec.ofNat 8 (b.toNat / 16) := by
    apply BitVec.eq_of_toNat_eq
    simp [Nat.shiftRight_eq_div_pow]; omega
  have hlo : b &&& 0x0F = BitVec.ofNat 8 (b.toNat % 16) := by
    apply BitVec.eq_of_toNat_eq
    have := Nat.and_two_pow_sub_one_eq_mod b.toNat 4
    simp at this ⊢; omega
  rw [← hhi, ← hlo]; rfl

@[simp] theorem hexEncode_length (bs : List Byte) : (hexEncode bs).length = 2 * bs.length := by
  induction bs with
  | nil => rfl
  | cons b bs ih => rw [hexEncode_cons]; simp [ih]; omega

/-- The two characters of byte `k` (R102, R220). -/
theorem hexEncode_getElem? {bs : List Byte} {k : Nat} (h : k < bs.length) :
    (hexEncode bs)[2 * k]? = some (hexChar (BitVec.ofNat 8 ((bs.getD k 0).toNat / 16))) ∧
    (hexEncode bs)[2 * k + 1]? = some (hexChar (BitVec.ofNat 8 ((bs.getD k 0).toNat % 16))) := by
  induction bs generalizing k with
  | nil => simp at h
  | cons b bs ih =>
    rw [hexEncode_cons]
    cases k with
    | zero => exact ⟨rfl, rfl⟩
    | succ k => exact ih (Nat.lt_of_succ_lt_succ h)

/-- The two digits do not overlap, so joining them is adding. -/
theorem joinDigits_toNat {h l : Byte} (hh : h.toNat ≤ 15) (hl : l.toNat ≤ 15) :
    (h <<< 4 ||| l).toNat = 16 * h.toNat + l.toNat := by
  rw [BitVec.toNat_or, BitVec.toNat_shiftLeft, Nat.mod_eq_of_lt (by rw [Nat.shiftLeft_eq]; omega),
    ← Nat.shiftLeft_add_eq_or_of_lt (by omega), Nat.shiftLeft_eq]
  omega

/-- Two characters decode to a byte in front of the rest, where all three parts decode (R220, R221). -/
theorem hexDecode_cons_cons (lower : Bool) (hi lo : Byte) (rest : List Byte) :
    hexDecode lower (hi :: lo :: rest) = (hexVal lower hi).bind fun h => (hexVal lower lo).bind fun l =>
      (hexDecode lower rest).map ((h <<< 4 ||| l) :: ·) := by
  rw [hexDecode]
  cases hexVal lower hi with
  | none => rfl
  | some h =>
    cases hexVal lower lo with
    | none => rfl
    | some l => cases hexDecode lower rest <;> rfl

theorem hexDecode_cons_cons_eq_none {lower : Bool} {hi lo : Byte} {rest : List Byte} :
    hexDecode lower (hi :: lo :: rest) = none ↔
      hexVal lower hi = none ∨ hexVal lower lo = none ∨ hexDecode lower rest = none := by
  rw [hexDecode_cons_cons]
  cases hexVal lower hi with
  | none => simp
  | some h =>
    cases hexVal lower lo with
    | none => simp
    | some l => simp

/-- When `HEX.DEC` fails (R221). -/
theorem hexDecode_eq_none {lower : Bool} {chars : List Byte} : hexDecode lower chars = none ↔
    chars.length % 2 = 1 ∨ ∃ c ∈ chars, hexVal lower c = none := by
  induction chars using List.twoStepInduction with
  | nil => simp [hexDecode]
  | singleton c => simp [hexDecode]
  | cons_cons hi lo rest ih =>
    rw [hexDecode_cons_cons_eq_none, ih]
    simp only [List.length_cons, List.mem_cons, exists_eq_or_imp, Nat.add_assoc, Nat.add_mod_right]
    tauto

/-- What `HEX.DEC` decodes to, byte by byte (R220). -/
theorem hexDecode_eq_some {lower : Bool} {chars bytes : List Byte} (h : hexDecode lower chars = some bytes) :
    2 * bytes.length = chars.length ∧
    ∀ k, k < bytes.length → ∃ h l, hexVal lower (chars.getD (2 * k) 0) = some h ∧
      hexVal lower (chars.getD (2 * k + 1) 0) = some l ∧ (bytes.getD k 0).toNat = 16 * h.toNat + l.toNat := by
  induction chars using List.twoStepInduction generalizing bytes with
  | nil => cases h; simp
  | singleton c => cases h
  | cons_cons hi lo rest ih =>
    rw [hexDecode_cons_cons] at h
    simp only [Option.bind_eq_some_iff, Option.map_eq_some_iff] at h
    obtain ⟨d, hd, e, he, bs, hbs, rfl⟩ := h
    obtain ⟨hlen, hbyte⟩ := ih hbs
    refine ⟨by simp only [List.length_cons]; omega, fun k hk => ?_⟩
    cases k with
    | zero => exact ⟨d, e, hd, he, joinDigits_toNat (hexVal_le hd) (hexVal_le he)⟩
    | succ k => exact hbyte k (Nat.lt_of_succ_lt_succ hk)

/-- Settles O12: the alphabet by its ranges, `HEX.ENC` and `HEX.DEC` by induction on the bytes and on pairs of
characters. -/
theorem hexCodec : Obligations.HexCodec :=
  ⟨fun _ => hexChar_toNat_of_le_nine, fun _ => hexChar_toNat_of_ten_le, fun _ _ _ => hexVal_eq_some,
    fun bytes => ⟨hexEncode_length bytes, fun _ => hexEncode_getElem?⟩, fun _ _ => hexDecode_eq_none,
    fun _ _ _ => hexDecode_eq_some⟩

end Sys2Proof.Machine


/-! The family 40_datastore.md: what each DataStore command comes to in each of its cases, as one equation, and the
elements of a bank after a write and after a growth. -/

namespace Sys2Proof.Machine

/-! ### Banks -/

/-- A slice of a bank depends on that bank alone (20_memory.md R68). -/
theorem Memory.read_eq_of_bank_eq {m m' : Memory} {b : Bank} (h : m.bank b = m'.bank b) (i n : Nat) :
    m.read b i n = m'.read b i n := by
  cases b <;> simp_all [Memory.bank, Memory.read]

/-- A slice of a bank read back after it was written (R137). -/
theorem Memory.read_write {m : Memory} {b : Bank} {i : Nat} {vs : Values} (hf : vs.fits b = true)
    (h : i + vs.length ≤ m.len b) : (m.write b i vs).read b i vs.length = vs := by
  match b, vs, hf, h with
  | .cd, .bits _, _, h => exact congrArg Values.bits (slice_overwrite h)
  | .id, .bits _, _, h => exact congrArg Values.bits (slice_overwrite h)
  | .hr, .regs _, _, h => exact congrArg Values.regs (slice_overwrite h)
  | .ir, .regs _, _, h => exact congrArg Values.regs (slice_overwrite h)

/-- The elements appended to a list, by their place from its old end on. -/
theorem getElem?_append_length_add {α : Type} (l vs : List α) (k : Nat) : (l ++ vs)[l.length + k]? = vs[k]? := by
  rw [List.getElem?_append_right (Nat.le_add_right ..), Nat.add_sub_cancel_left]

/-- The elements appended by a growth follow the old ones (R135). -/
theorem Memory.grow_elem?_len_add {m : Memory} {b : Bank} {vs : Values} (hf : vs.fits b = true) (k : Nat) :
    (m.grow b vs).elem? b (m.len b + k) = vs.elem? k := by
  match b, vs, hf with
  | .cd, .bits _, _ => exact congrArg (Option.map Sum.inl) (getElem?_append_length_add ..)
  | .id, .bits _, _ => exact congrArg (Option.map Sum.inl) (getElem?_append_length_add ..)
  | .hr, .regs _, _ => exact congrArg (Option.map Sum.inr) (getElem?_append_length_add ..)
  | .ir, .regs _, _ => exact congrArg (Option.map Sum.inr) (getElem?_append_length_add ..)

/-- A growth moves and changes no element of any bank (R135). -/
theorem Memory.grow_elem?_of_lt {m : Memory} {b c : Bank} {vs : Values} {k : Nat} (hf : vs.fits b = true)
    (hk : k < m.len c) : (m.grow b vs).elem? c k = m.elem? c k := by
  by_cases hc : c = b
  · subst hc
    match c, vs, hf, hk with
    | .cd, .bits _, _, hk => exact congrArg (Option.map Sum.inl) (List.getElem?_append_left hk)
    | .id, .bits _, _, hk => exact congrArg (Option.map Sum.inl) (List.getElem?_append_left hk)
    | .hr, .regs _, _, hk => exact congrArg (Option.map Sum.inr) (List.getElem?_append_left hk)
    | .ir, .regs _, _, hk => exact congrArg (Option.map Sum.inr) (List.getElem?_append_left hk)
  · exact congrArg (Values.elem? · k) (Memory.grow_bank_of_ne hc)

/-! ### What a command comes to on a store that is ready -/

section
variable {s : State} {b : Bank} {start : Nat}

theorem execDsRead_outOfRange {count : Nat} (hr : s.StoreReady) (hb : s.mem.len b < start + 1 + count) :
    execDsRead b start count s = .next { s with rsp := some (.error (.outOfRange b start count)) } := by
  rw [execDsRead, storeGuard_bind_ready _ hr, dsRead_outOfRange hb]
  rfl

theorem execDsRead_inRange {count : Nat} (hr : s.StoreReady) (hb : start + 1 + count ≤ s.mem.len b) :
    execDsRead b start count s = .next { s with
      evtR := s.evtR ++ [⟨kindOf b, start, s.mem.read b (start + 1) count⟩]
      rsp := some (.ok (.data (s.mem.read b (start + 1) count))) } := by
  rw [execDsRead, storeGuard_bind_ready _ hr, dsRead_inRange hb, readState_eq hr.2]
  rfl

theorem execDsWrite_misfit {vs : Values} (hr : s.StoreReady) (hf : vs.fits b = false) :
    execDsWrite b start vs s = .refused (.wrongElementKind b) := by
  rw [execDsWrite, storeGuard_bind_ready _ hr, if_pos hf]
  rfl

theorem execDsWrite_outOfRange {vs : Values} (hr : s.StoreReady) (hf : vs.fits b = true)
    (hb : s.mem.len b < start + 1 + vs.length) :
    execDsWrite b start vs s = .next { s with rsp := some (.error (.outOfRange b start vs.length)) } := by
  rw [execDsWrite, storeGuard_bind_ready _ hr, if_neg (by simp [hf]), dsWrite_outOfRange hb]
  rfl

theorem execDsWrite_inRange {vs : Values} (hr : s.StoreReady) (hf : vs.fits b = true)
    (hb : start + 1 + vs.length ≤ s.mem.len b) :
    execDsWrite b start vs s = .next { s with
      mem := s.mem.write b (start + 1) vs
      evtW := s.evtW ++ [⟨kindOf b, start, vs⟩]
      rsp := some (.ok .unit) } := by
  rw [execDsWrite, storeGuard_bind_ready _ hr, if_neg (by simp [hf]), dsWrite_inRange hb, writeState_eq hr.2]
  rfl

/-- Where DS_BUSY is false, a growth changes the banks alone. -/
theorem growState_eq {vs : Values} (h : s.dsBusy = false) :
    growState b vs s = { s with mem := s.mem.grow b vs } := by
  obtain ⟨⟩ := s
  simp_all [growState, State.acquire, State.release, State.setMem]

theorem execDsGrow_ready {vs : Values} (hr : s.StoreReady) (hf : vs.fits b = true) :
    execDsGrow b vs s = .next { s with mem := s.mem.grow b vs, rsp := some (.ok .unit) } := by
  rw [execDsGrow, storeGuard_bind_ready _ hr, if_neg (by simp [hf]), ← growState, growState_eq hr.2]
  rfl

end

/-! ### The statements -/

/-- Settles O27: the data are the bank's slice from storage index `start + 1` on. -/
theorem dS_READ_Result : Obligations.DS_READ_Result := by
  intro b start count s hr
  refine ⟨fun hb => execDsRead_outOfRange hr (by omega), fun _ hb => ?_⟩
  exact ⟨s.mem.read b (start + 1) count, execDsRead_inRange hr hb, Memory.read_fits .., Memory.read_length hb,
    fun _ => Memory.read_elem?⟩

/-- Settles O28: the frame and the new slice are read off `Memory.write_elem?`. -/
theorem dS_WRITE_Result : Obligations.DS_WRITE_Result := by
  intro b start vs s hr
  refine ⟨execDsWrite_misfit hr, fun hf hb => execDsWrite_outOfRange hr hf (by omega), fun hf _ hb => ?_⟩
  refine ⟨s.mem.write b (start + 1) vs, execDsWrite_inRange hr hf hb, Memory.write_len hb, fun k hk => ?_,
    fun c k hk => ?_⟩
  · rw [Memory.write_elem? hf hb, if_pos ⟨rfl, by omega, by omega⟩, Nat.add_sub_cancel_left]
  · rw [Memory.write_elem? hf hb, if_neg hk]

/-- Settles O29: the later read sees the bank as the write left it, where the slice holds the values. -/
theorem readAfterWrite : Obligations.ReadAfterWrite := by
  intro b start vs s t u hs hf hb hw hu hbank
  cases (execDsWrite_inRange hs hf hb).symm.trans hw
  have hlen : start + 1 + vs.length ≤ u.mem.len b := by
    rw [Memory.len, hbank, ← Memory.len, Memory.write_len hb]
    exact hb
  have hdata : u.mem.read b (start + 1) vs.length = vs :=
    (Memory.read_eq_of_bank_eq hbank _ _).trans (Memory.read_write hf hb)
  exact ⟨_, execDsRead_inRange hu hlen, by rw [hdata]⟩

/-- Settles O32: no element of any bank moves, and the values follow those of the bank grown. -/
theorem dS_GROW_Result : Obligations.DS_GROW_Result :=
  fun b vs s hr hf => ⟨s.mem.grow b vs, execDsGrow_ready hr hf, Memory.grow_len hf,
    fun _ _ => Memory.grow_elem?_of_lt hf, fun k _ => Memory.grow_elem?_len_add hf k⟩

/-- Settles O30: where the store does not exist, by the equivalence for a next state; on a live store, by the guard. -/
theorem dS_CREATE_Result : Obligations.DS_CREATE_Result :=
  fun _ => ⟨fun h => execDsCreate_eq_next.2 ⟨h, rfl⟩, fun h => if_pos h⟩

/-- Settles O31: where the store does not exist, by the equivalence for a next state; on a live store, by the guard. -/
theorem dS_LOAD_Result : Obligations.DS_LOAD_Result :=
  fun _ _ _ _ _ => ⟨fun h => execDsLoad_eq_next.2 ⟨h, rfl⟩, fun h => if_pos h⟩

/-- Settles O33: each channel's set gains the identity by `mem_insertObserver`. -/
theorem oBS_SUBSCRIBE_Result : Obligations.OBS_SUBSCRIBE_Result :=
  fun o s h =>
    ⟨⟨insertObserver o s.obsR, (execObsSubscribe_eq_next (c := .readFrom)).2 ⟨h, rfl⟩,
        fun _ => mem_insertObserver.trans or_comm⟩,
      ⟨insertObserver o s.obsW, (execObsSubscribe_eq_next (c := .writtenTo)).2 ⟨h, rfl⟩,
        fun _ => mem_insertObserver.trans or_comm⟩⟩

end Sys2Proof.Machine

/-! The family 41_pdu_requests.md: the two codec commands on requests as one equation for each outcome, what the request
decoder makes of a PDU by its function code, and what it accepts. -/

namespace Sys2Proof

/-! ### Data blocks -/

/-- Register `k` of a data block is its bytes `2 * k` and `2 * k + 1` (R91). -/
theorem decodeRegs_getElem? {bs : List Byte} {k : Nat} (h : k < (decodeRegs bs).length) :
    (decodeRegs bs)[k]? = some (u16be (bs.getD (2 * k) 0) (bs.getD (2 * k + 1) 0)) := by
  induction bs using decodeRegs.induct generalizing k with
  | case1 a b rest ih =>
    cases k with
    | zero => rfl
    | succ k => exact ih (Nat.lt_of_succ_lt_succ h)
  | case2 a => exact absurd h (Nat.not_lt_zero k)
  | case3 => exact absurd h (Nat.not_lt_zero k)

/-- Bit `i` of data byte `j` survives unpacking and packing, unless it is padding (R60). -/
theorem packBits_unpackBits_getLsbD (data : List Byte) {q i j : Nat} (hi : i < 8) (h : 8 * j + i < q) :
    ((packBits (unpackBits data q)).getD j 0).getLsbD i = (data.getD j 0).getLsbD i := by
  rw [packBits_getLsbD _ _ hi, List.getD_eq_getElem?_getD, unpackBits_getElem? data h, Option.getD_some,
    show (8 * j + i) / 8 = j by omega, show (8 * j + i) % 8 = i by omega]

theorem be16_ofNat_u16be (a b : Byte) : be16 (BitVec.ofNat 16 (u16be a b).toNat) = [a, b] := by
  rw [BitVec.ofNat_toNat, BitVec.setWidth_eq, be16_u16be]

/-! ### What the decoders report -/

theorem twoWords_of_length_ne {rest : List Byte} (h : rest.length ≠ 4) : twoWords rest = .error .length := by
  unfold twoWords
  split
  · exact absurd rfl h
  · rfl

theorem map_twoWords_of_length_ne {α : Type} (g : Word × Word → α) {rest : List Byte} (h : rest.length ≠ 4) :
    (twoWords rest).map g = .error .length := by
  rw [twoWords_of_length_ne h]; rfl

theorem coilFields_of_length_ne {rest : List Byte} (h : rest.length ≠ 4) : coilFields rest = .error .length := by
  rw [coilFields, twoWords_of_length_ne h]

/-- A value that is neither 0xFF00 nor 0x0000 is no coil value (R162). -/
theorem coilFields_of_bad_value {a b c d : Byte} (hon : u16be c d ≠ 0xFF00) (hoff : u16be c d ≠ 0x0000) :
    coilFields [a, b, c, d] = .error (.coilValue (u16be c d)) := by
  simp only [coilFields, twoWords, coilValue?, if_neg hon, if_neg hoff]

theorem decodeWriteMultipleCoils_of_short {rest : List Byte} (h : rest.length < 5) :
    decodeWriteMultipleCoils rest = .error .length := by
  unfold decodeWriteMultipleCoils
  split
  · simp only [List.length_cons] at h; omega
  · rfl

theorem decodeWriteMultipleRegisters_of_short {rest : List Byte} (h : rest.length < 5) :
    decodeWriteMultipleRegisters rest = .error .length := by
  unfold decodeWriteMultipleRegisters
  split
  · simp only [List.length_cons] at h; omega
  · rfl

/-- A byte outside the eight function codes is reported before anything after it is read (R152). -/
theorem decodeRequest_of_unsupported {fc : Byte}
    (h : fc ∉ ([0x01, 0x02, 0x03, 0x04, 0x05, 0x06, 0x0F, 0x10] : List Byte)) (rest : List Byte) :
    decodeRequest (fc :: rest) = .error (.function fc) := by
  have hu : unsupportedByte fc = true := by simpa [unsupportedByte, and_assoc] using h
  rw [decodeRequest, FuncCode.ofByte?_eq_none.2 hu]

/-- The six requests of fixed length report a wrong length before anything else (R154 to R164). -/
theorem decodeRequest_of_fixed_length_ne {fc : Byte} {rest : List Byte}
    (hfc : fc ∈ ([0x01, 0x02, 0x03, 0x04, 0x05, 0x06] : List Byte)) (h : rest.length ≠ 4) :
    decodeRequest (fc :: rest) = .error .length := by
  simp only [List.mem_cons, List.not_mem_nil, or_false] at hfc
  obtain rfl | rfl | rfl | rfl | rfl | rfl := hfc
  · exact map_twoWords_of_length_ne _ h
  · exact map_twoWords_of_length_ne _ h
  · exact map_twoWords_of_length_ne _ h
  · exact map_twoWords_of_length_ne _ h
  · exact congrArg (Except.map _) (coilFields_of_length_ne h)
  · exact map_twoWords_of_length_ne _ h

/-! ### What the decoders accept -/

/-- The data of 0x10 are what their registers are encoded to, for the byte count is even and fits one byte (R168). -/
theorem encodeRequest_of_decodeWriteMultipleRegisters {rest : List Byte} {m : Request}
    (h : decodeWriteMultipleRegisters rest = .ok m) : m.wf = true ∧ encodeRequest m = 0x10 :: rest := by
  unfold decodeWriteMultipleRegisters at h
  split at h
  next a b c d n data =>
    split_ifs at h with hn hdata
    cases h
    have hlen : (decodeRegs data).length = (u16be c d).toNat := by rw [decodeRegs_length]; omega
    have hbyte : BitVec.ofNat 8 (2 * (u16be c d).toNat) = n := by
      rw [← not_ne_iff.1 hn, BitVec.ofNat_toNat, BitVec.setWidth_eq]
    refine ⟨decide_eq_true ?_, ?_⟩
    · have := n.isLt; omega
    · simp only [encodeRequest, hlen, hbyte, be16_u16be, be16_ofNat_u16be, List.cons_append, List.nil_append,
        encodeRegs_decodeRegs (bs := data) (by omega)]
  next => cases h

/-- What 0x0F accepts: the byte count fits the quantity, and the data the byte count (R166). -/
theorem decodeWriteMultipleCoils_eq_ok {rest : List Byte} {m : Request} : decodeWriteMultipleCoils rest = .ok m ↔
    ∃ a b c d n data, rest = a :: b :: c :: d :: n :: data ∧ n.toNat = ceil8 (u16be c d).toNat ∧
      data.length = n.toNat ∧ m = .writeMultipleCoils (u16be a b) (unpackBits data (u16be c d).toNat) := by
  constructor
  · intro h
    unfold decodeWriteMultipleCoils at h
    split at h
    next a b c d n data =>
      split_ifs at h with hn hdata
      cases h
      exact ⟨a, b, c, d, n, data, rfl, not_ne_iff.1 hn, not_ne_iff.1 hdata, rfl⟩
    next => cases h
  · rintro ⟨a, b, c, d, n, data, rfl, hn, hdata, rfl⟩
    exact (if_neg (not_not_intro hn)).trans (if_neg (not_not_intro hdata))

theorem map_twoWords_eq_ok {α : Type} {g : Word × Word → α} {rest : List Byte} {m : α} :
    (twoWords rest).map g = .ok m ↔ ∃ v w, rest = be16 v ++ be16 w ∧ m = g (v, w) := by
  constructor
  · intro h
    cases hw : twoWords rest with
    | error r => rw [hw] at h; cases h
    | ok p => rw [hw] at h; cases h; exact ⟨p.1, p.2, twoWords_eq_ok.1 hw, rfl⟩
  · rintro ⟨v, w, rfl, rfl⟩
    rw [twoWords_be16]; rfl

theorem coilFields_eq_ok {rest : List Byte} {v : Word} {b : Bool} :
    coilFields rest = .ok (v, b) ↔ rest = be16 v ++ be16 (coilField b) := by
  constructor
  · intro h
    unfold coilFields at h
    split at h
    next => cases h
    next hw =>
      split at h
      next hv => cases h; rw [twoWords_eq_ok.1 hw, coilField_of_coilValue? hv]
      next => cases h
  · rintro rfl
    exact coilFields_be16 v b

/-- A decoded request other than 0x0F is well formed and was presented as its own encoding (R169). -/
theorem encodeRequest_of_decodeRequestBody {f : FuncCode} {rest : List Byte} {m : Request}
    (hf : f ≠ .writeMultipleCoils) (h : decodeRequestBody f rest = .ok m) :
    m.wf = true ∧ encodeRequest m = f.toByte :: rest := by
  cases f with
  | readCoils => obtain ⟨v, w, rfl, rfl⟩ := map_twoWords_eq_ok.1 h; exact ⟨rfl, rfl⟩
  | readDiscreteInputs => obtain ⟨v, w, rfl, rfl⟩ := map_twoWords_eq_ok.1 h; exact ⟨rfl, rfl⟩
  | readHoldingRegisters => obtain ⟨v, w, rfl, rfl⟩ := map_twoWords_eq_ok.1 h; exact ⟨rfl, rfl⟩
  | readInputRegisters => obtain ⟨v, w, rfl, rfl⟩ := map_twoWords_eq_ok.1 h; exact ⟨rfl, rfl⟩
  | writeSingleRegister => obtain ⟨v, w, rfl, rfl⟩ := map_twoWords_eq_ok.1 h; exact ⟨rfl, rfl⟩
  | writeSingleCoil =>
    rw [decodeRequestBody] at h
    cases hc : coilFields rest with
    | error r => rw [hc] at h; cases h
    | ok p => rw [hc] at h; cases h; rw [coilFields_eq_ok.1 hc]; exact ⟨rfl, rfl⟩
  | writeMultipleRegisters => exact encodeRequest_of_decodeWriteMultipleRegisters h
  | writeMultipleCoils => exact absurd rfl hf

/-- Only a PDU that begins with a function code is accepted, and its function code selects the decoder (R152). -/
theorem decodeRequest_eq_ok {pdu : List Byte} {m : Request} : decodeRequest pdu = .ok m ↔
    ∃ f rest, pdu = FuncCode.toByte f :: rest ∧ decodeRequestBody f rest = .ok m := by
  constructor
  · intro h
    cases pdu with
    | nil => cases h
    | cons fc rest =>
      rw [decodeRequest] at h
      split at h
      next => cases h
      next f hf => exact ⟨f, rest, by rw [FuncCode.toByte_of_ofByte? hf], h⟩
  · rintro ⟨f, rest, rfl, h⟩
    rw [decodeRequest, FuncCode.ofByte?_toByte]
    exact h

/-- The fields of 0x0F are encoded again as they were read; the data are packed again from the coils (R165). -/
theorem encodeRequest_writeMultipleCoils_unpackBits {c d n : Byte} (hn : n.toNat = ceil8 (u16be c d).toNat) (a b : Byte)
    (data : List Byte) :
    encodeRequest (.writeMultipleCoils (u16be a b) (unpackBits data (u16be c d).toNat))
      = [0x0F, a, b, c, d, n] ++ packBits (unpackBits data (u16be c d).toNat) := by
  have hbyte : BitVec.ofNat 8 (ceil8 (u16be c d).toNat) = n := by rw [← hn, BitVec.ofNat_toNat, BitVec.setWidth_eq]
  simp only [encodeRequest, unpackBits_length, hbyte, be16_u16be, be16_ofNat_u16be, List.cons_append, List.nil_append]

/-- After the six bytes of the header, repacked data differ from the data at most past the last coil (R60). -/
theorem repacked_getLsbD_eq_or_padding {a b c d n : Byte} (data : List Byte) (q j : Nat) {i : Nat} (hi : i < 8) :
    (([0x0F, a, b, c, d, n] ++ packBits (unpackBits data q)).getD j 0).getLsbD i
      = (([0x0F, a, b, c, d, n] ++ data).getD j 0).getLsbD i ∨ (6 ≤ j ∧ q ≤ 8 * (j - 6) + i) := by
  by_cases hj : j < 6
  · rw [List.getD_append _ _ _ _ hj, List.getD_append _ _ _ _ hj]
    exact .inl rfl
  · have hj' : 6 ≤ j := Nat.le_of_not_lt hj
    rw [List.getD_append_right _ _ _ _ hj', List.getD_append_right _ _ _ _ hj']
    by_cases hq : 8 * (j - 6) + i < q
    · exact .inl (packBits_unpackBits_getLsbD data hi hq)
    · exact .inr ⟨hj', Nat.le_of_not_lt hq⟩

/-- Settles O2: the encoder's side by `decodeRequest_encodeRequest`; the decoder's side by whether the function code is
0x0F, whose data are equal where they are not padding. -/
theorem requestCodecRoundTrip : Obligations.RequestCodecRoundTrip := by
  refine ⟨fun m => decodeRequest_encodeRequest, fun pdu m h => ?_⟩
  obtain ⟨f, rest, rfl, hbody⟩ := decodeRequest_eq_ok.1 h
  by_cases hf : f = .writeMultipleCoils
  · subst hf
    obtain ⟨a, b, c, d, n, data, rfl, hn, hdata, rfl⟩ := decodeWriteMultipleCoils_eq_ok.1 hbody
    have henc := encodeRequest_writeMultipleCoils_unpackBits hn a b data
    refine ⟨decide_eq_true ?_, ?_, fun hne => absurd rfl (hne _ _), ?_⟩
    · rw [unpackBits_length]
      have := n.isLt
      unfold ceil8 at hn
      omega
    · simp only [henc, List.length_append, packBits_length, unpackBits_length, ← hn, ← hdata, List.length_cons,
        List.length_nil]
      omega
    · intro start values hm j i hi
      cases hm
      rw [henc, unpackBits_length]
      exact repacked_getLsbD_eq_or_padding data _ j hi
  · obtain ⟨hwf, henc⟩ := encodeRequest_of_decodeRequestBody hf hbody
    exact ⟨hwf, congrArg List.length henc, fun _ => henc, fun _ _ _ _ _ _ => .inl (by rw [henc])⟩

end Sys2Proof

namespace Sys2Proof.Machine

/-! ### The codec commands on requests -/

theorem exec_pduEncReq_of_wf {m : Request} (s : State) (h : m.wf = true) :
    exec (.pduEncReq m) s = .next { s with rsp := some (.ok (.bytes (encodeRequest m))) } := if_pos h

theorem exec_pduEncReq_of_not_wf {m : Request} (s : State) (h : ¬ m.wf = true) :
    exec (.pduEncReq m) s = .refused .messageTooLong := if_neg h

theorem exec_pduDecReq_of_ok {bytes : List Byte} {m : Request} (s : State) (h : decodeRequest bytes = .ok m) :
    exec (.pduDecReq bytes) s = .next { s with rsp := some (.ok (.request m)) } := by
  rw [exec, execPduDecReq, h]; rfl

theorem exec_pduDecReq_of_error {bytes : List Byte} {r : FormatReason} (s : State)
    (h : decodeRequest bytes = .error r) :
    exec (.pduDecReq bytes) s = .next { s with rsp := some (.error (.formatError r)) } := by
  rw [exec, execPduDecReq, h]; rfl

/-- Settles O19: the answer is `encodeRequest` of the message exactly where the message is well formed. -/
theorem pDU_ENC_REQ_Result : Obligations.PDU_ENC_REQ_Result := by
  intro s
  refine ⟨fun _ _ => ?_, fun _ _ => ?_, fun _ _ => ?_, fun _ _ => ?_, fun _ v => ?_, fun _ _ => ?_,
    fun _ _ h => ?_, fun _ _ h => ?_, fun _ _ h => ?_, fun _ _ h => ?_⟩
  · exact exec_pduEncReq_of_wf s rfl
  · exact exec_pduEncReq_of_wf s rfl
  · exact exec_pduEncReq_of_wf s rfl
  · exact exec_pduEncReq_of_wf s rfl
  · cases v <;> exact exec_pduEncReq_of_wf s rfl
  · exact exec_pduEncReq_of_wf s rfl
  · exact exec_pduEncReq_of_wf s (decide_eq_true h)
  · exact exec_pduEncReq_of_wf s (decide_eq_true h)
  · exact exec_pduEncReq_of_not_wf s (mt of_decide_eq_true (Nat.not_le_of_lt h))
  · exact exec_pduEncReq_of_not_wf s (mt of_decide_eq_true (Nat.not_le_of_lt h))

/-- Settles O20: the tests in the order of R299, each by the lemma that says what the decoder reports; where they pass,
the message by computation, and the registers of 0x10 by `decodeRegs_getElem?`. -/
theorem pDU_DEC_REQ_Result : Obligations.PDU_DEC_REQ_Result := by
  intro s
  refine ⟨exec_pduDecReq_of_error s rfl,
    fun _ rest h => exec_pduDecReq_of_error s (decodeRequest_of_unsupported h rest),
    fun _ _ hfc h => exec_pduDecReq_of_error s (decodeRequest_of_fixed_length_ne hfc h),
    fun _ _ _ _ => exec_pduDecReq_of_ok s rfl, fun _ _ _ _ => exec_pduDecReq_of_ok s rfl,
    fun _ _ _ _ => exec_pduDecReq_of_ok s rfl, fun _ _ _ _ => exec_pduDecReq_of_ok s rfl,
    fun _ _ => exec_pduDecReq_of_ok s rfl, fun _ _ => exec_pduDecReq_of_ok s rfl,
    fun _ _ _ _ hon hoff =>
      exec_pduDecReq_of_error s (congrArg (Except.map _) (coilFields_of_bad_value hon hoff)),
    fun _ _ _ _ => exec_pduDecReq_of_ok s rfl, fun fc rest hfc h => ?short,
    fun a b c d n data => ⟨fun hn => ?coilCount, fun hn hd => ?coilLength, fun hn hd => ?coils,
      fun hn => ?registerCount, fun hn hd => ?registerLength, fun hn hd => ?registers⟩⟩
  case short =>
    obtain rfl | rfl := hfc
    · exact exec_pduDecReq_of_error s (decodeWriteMultipleCoils_of_short h)
    · exact exec_pduDecReq_of_error s (decodeWriteMultipleRegisters_of_short h)
  case coilCount => exact exec_pduDecReq_of_error s (if_pos hn)
  case coilLength => exact exec_pduDecReq_of_error s ((if_neg (not_not_intro hn)).trans (if_pos hd))
  case coils =>
    exact exec_pduDecReq_of_ok s (decodeWriteMultipleCoils_eq_ok.2 ⟨a, b, c, d, n, data, rfl, hn, hd, rfl⟩)
  case registerCount => exact exec_pduDecReq_of_error s (if_pos hn)
  case registerLength => exact exec_pduDecReq_of_error s ((if_neg (not_not_intro hn)).trans (if_pos hd))
  case registers =>
    have hok : decodeRequest (0x10 :: a :: b :: c :: d :: n :: data)
        = .ok (.writeMultipleRegisters (u16be a b) (decodeRegs data)) :=
      (if_neg (not_not_intro hn)).trans (if_neg (not_not_intro hd))
    refine ⟨decodeRegs data, exec_pduDecReq_of_ok s hok, ?_, fun k => decodeRegs_getElem?⟩
    rw [decodeRegs_length]
    omega

end Sys2Proof.Machine

/-! The family 42_pdu_responses.md. After the function-code match of R182 the response decoder is that code's own decoder
(`decodeResponse_of_body_ok`, `exec_pduDecRsp_toByte`), and so is a response row (`exec_of_decodeResponseRow`): what a
counted data block comes to against an expectation is said once, and the round trip, `PDU.DEC_RSP` and the rows use it. -/

namespace Sys2Proof

/-! ### Results of a decoder -/

/-- The message is made from what is read, so it does not change whether the reading succeeds. -/
theorem bind_map_of_bind {ε α β γ : Type} {x : Except ε α} {g : α → Except ε β} {r : Except ε β} (k : β → γ)
    (h : x.bind g = r) : (x.bind fun a => (g a).map k) = r.map k := by
  subst h
  cases x <;> rfl

theorem map_eq_ok {ε α β : Type} {x : Except ε α} {g : α → β} {y : β} (h : x.map g = .ok y) :
    ∃ a, x = .ok a ∧ y = g a := by
  cases x with
  | error r => cases h
  | ok a => cases h; exact ⟨a, rfl, rfl⟩

theorem map_ne_error {ε α β : Type} {x : Except ε α} (g : α → β) {r : ε} (h : x ≠ .error r) : x.map g ≠ .error r := by
  cases x with
  | error r' => exact fun he => h (by cases he; rfl)
  | ok a => exact nofun

/-! ### Data blocks -/

/-- All bits of packed data are the elements and the padding (R60). -/
theorem unpackBits_packBits_padded (bits : List Bool) :
    unpackBits (packBits bits) (8 * ceil8 bits.length)
      = bits ++ List.replicate (8 * ceil8 bits.length - bits.length) false := by
  have hle : bits.length ≤ 8 * ceil8 bits.length := by unfold ceil8; omega
  apply List.ext_getElem?
  intro k
  by_cases hk : k < 8 * ceil8 bits.length
  · rw [unpackBits_getElem? _ hk, packBits_getLsbD _ _ (Nat.mod_lt _ (by omega)), Nat.div_add_mod]
    by_cases hb : k < bits.length
    · rw [List.getElem?_append_left hb, List.getD_eq_getElem _ _ hb, List.getElem?_eq_getElem hb]
    · rw [List.getElem?_append_right (Nat.le_of_not_lt hb), List.getD_eq_default _ _ (Nat.le_of_not_lt hb),
        List.getElem?_replicate_of_lt (by omega)]
  · rw [List.getElem?_eq_none (by rw [unpackBits_length]; omega),
      List.getElem?_eq_none (by rw [List.length_append, List.length_replicate]; omega)]

/-! ### The checks of a read response -/

theorem countedData_of_length_eq {n : Byte} {data : List Byte} (h : data.length = n.toNat) :
    countedData (n :: data) = .ok data := if_neg (not_not_intro h)

theorem countedData_of_length_ne {n : Byte} {data : List Byte} (h : data.length ≠ n.toNat) :
    countedData (n :: data) = .error .length := if_pos h

theorem countedRegs_of_length_eq {n : Byte} {data : List Byte} (h : data.length = n.toNat) :
    countedRegs (n :: data) = if data.length % 2 ≠ 0 then .error .byteCount else .ok (decodeRegs data) := by
  rw [countedRegs, countedData_of_length_eq h]

theorem countedRegs_of_length_ne {n : Byte} {data : List Byte} (h : data.length ≠ n.toNat) :
    countedRegs (n :: data) = .error .length := by
  rw [countedRegs, countedData_of_length_ne h]

/-- Data behind a one-byte count fit it. -/
theorem length_le_of_countedData {rest data : List Byte} (h : countedData rest = .ok data) : data.length ≤ 255 := by
  cases rest with
  | nil => cases h
  | cons n tail =>
    rw [countedData] at h
    split_ifs at h with hlen
    cases h
    have := n.isLt
    omega

theorem length_le_of_countedRegs {rest : List Byte} {vs : List Word} (h : countedRegs rest = .ok vs) :
    vs.length ≤ 127 := by
  rw [countedRegs] at h
  split at h
  next => cases h
  next data hdata =>
    split_ifs at h with hodd
    cases h
    have := length_le_of_countedData hdata
    rw [decodeRegs_length]
    omega

/-- The bits that are answered: the expected quantity where it fits the data, all of them where none is expected
(R184). -/
theorem expectBits_of_fits {qty : Option Nat} {data : List Byte} {q : Nat}
    (h : (qty = none ∧ q = 8 * data.length) ∨ (qty = some q ∧ data.length = ceil8 q)) :
    expectBits qty data = .ok (unpackBits data q) := by
  obtain ⟨rfl, rfl⟩ | ⟨rfl, hq⟩ := h
  · rfl
  · exact if_neg (not_not_intro hq)

theorem expectBits_of_misfit {data : List Byte} {q : Nat} (h : data.length ≠ ceil8 q) :
    expectBits (some q) data = .error .byteCount := if_pos h

theorem expectRegs_of_fits {qty : Option Nat} {vs : List Word} (h : ∀ q, qty = some q → vs.length = q) :
    expectRegs qty vs = .ok vs := by
  cases qty with
  | none => rfl
  | some q => exact if_neg (not_not_intro (h q rfl))

theorem expectRegs_of_misfit {vs : List Word} {q : Nat} (h : vs.length ≠ q) :
    expectRegs (some q) vs = .error .byteCount := if_pos h

theorem coilFields_of_value {a b c d : Byte} {v : Bool} (h : coilValue? (u16be c d) = some v) :
    coilFields [a, b, c, d] = .ok (u16be a b, v) := by
  rw [coilFields_eq_ok, coilField_of_coilValue? h, be16_u16be, be16_u16be]
  rfl

/-! ### Counted data blocks -/

/-- The data of a bit response whose two lengths fit (R184). -/
theorem countedBits_eq {qty : Option Nat} {n : Byte} {data : List Byte} (h : data.length = n.toNat) :
    (countedData (n :: data)).bind (expectBits qty) = expectBits qty data := by
  rw [countedData_of_length_eq h]; rfl

theorem countedBits_of_length_ne {qty : Option Nat} {n : Byte} {data : List Byte} (h : data.length ≠ n.toNat) :
    (countedData (n :: data)).bind (expectBits qty) = .error .length := by
  rw [countedData_of_length_ne h]; rfl

theorem countedRegs_bind_of_length_ne {qty : Option Nat} {n : Byte} {data : List Byte} (h : data.length ≠ n.toNat) :
    (countedRegs (n :: data)).bind (expectRegs qty) = .error .length := by
  rw [countedRegs_of_length_ne h]; rfl

theorem countedRegs_bind_of_odd {qty : Option Nat} {n : Byte} {data : List Byte} (h : data.length = n.toNat)
    (hodd : n.toNat % 2 = 1) : (countedRegs (n :: data)).bind (expectRegs qty) = .error .byteCount := by
  rw [countedRegs_of_length_eq h, if_pos (by omega)]; rfl

theorem countedRegs_bind_of_even {qty : Option Nat} {n : Byte} {data : List Byte} (h : data.length = n.toNat)
    (heven : n.toNat % 2 = 0) :
    (countedRegs (n :: data)).bind (expectRegs qty) = expectRegs qty (decodeRegs data) := by
  rw [countedRegs_of_length_eq h, if_neg (by omega)]; rfl

/-- A register response whose byte count is odd or not twice the expected quantity (R188). -/
theorem countedRegs_bind_of_misfit {qty : Option Nat} {n : Byte} {data : List Byte} (h : data.length = n.toNat)
    (hbad : n.toNat % 2 = 1 ∨ ∃ q, qty = some q ∧ n.toNat ≠ 2 * q) :
    (countedRegs (n :: data)).bind (expectRegs qty) = .error .byteCount := by
  obtain hodd | heven := (Nat.mod_two_eq_zero_or_one n.toNat).symm
  · exact countedRegs_bind_of_odd h hodd
  · obtain hodd | ⟨q, rfl, hq⟩ := hbad
    · omega
    · rw [countedRegs_bind_of_even h heven]
      exact expectRegs_of_misfit (by rw [decodeRegs_length]; omega)

/-- A register response whose byte count fits (R188). -/
theorem countedRegs_bind_of_fits {qty : Option Nat} {n : Byte} {data : List Byte} (h : data.length = n.toNat)
    (heven : n.toNat % 2 = 0) (hq : ∀ q, qty = some q → n.toNat = 2 * q) :
    (countedRegs (n :: data)).bind (expectRegs qty) = .ok (decodeRegs data) := by
  rw [countedRegs_bind_of_even h heven]
  refine expectRegs_of_fits fun q hqty => ?_
  have := hq q hqty
  rw [decodeRegs_length]
  omega

/-! ### The decoder after the function code -/

theorem decodeResponseBody_bits_ok {qty : Option Nat} {rest : List Byte} {bits : List Bool}
    (h : (countedData rest).bind (expectBits qty) = .ok bits) :
    decodeResponseBody .readCoils qty rest = .ok (.readCoils bits) ∧
    decodeResponseBody .readDiscreteInputs qty rest = .ok (.readDiscreteInputs bits) :=
  ⟨bind_map_of_bind _ h, bind_map_of_bind _ h⟩

theorem decodeResponseBody_bits_error {f : FuncCode} (hf : f = .readCoils ∨ f = .readDiscreteInputs)
    {qty : Option Nat} {rest : List Byte} {r : FormatReason}
    (h : (countedData rest).bind (expectBits qty) = .error r) : decodeResponseBody f qty rest = .error r := by
  obtain rfl | rfl := hf
  · exact bind_map_of_bind _ h
  · exact bind_map_of_bind _ h

theorem decodeResponseBody_registers_ok {qty : Option Nat} {rest : List Byte} {vs : List Word}
    (h : (countedRegs rest).bind (expectRegs qty) = .ok vs) :
    decodeResponseBody .readHoldingRegisters qty rest = .ok (.readHoldingRegisters vs) ∧
    decodeResponseBody .readInputRegisters qty rest = .ok (.readInputRegisters vs) :=
  ⟨bind_map_of_bind _ h, bind_map_of_bind _ h⟩

theorem decodeResponseBody_registers_error {f : FuncCode}
    (hf : f = .readHoldingRegisters ∨ f = .readInputRegisters) {qty : Option Nat} {rest : List Byte} {r : FormatReason}
    (h : (countedRegs rest).bind (expectRegs qty) = .error r) : decodeResponseBody f qty rest = .error r := by
  obtain rfl | rfl := hf
  · exact bind_map_of_bind _ h
  · exact bind_map_of_bind _ h

/-- The four write responses test their length before anything else (R192, R194, R196, R198). -/
theorem decodeResponseBody_write_of_length_ne {f : FuncCode} (qty : Option Nat) {rest : List Byte}
    (hf : f = .writeSingleCoil ∨ f = .writeSingleRegister ∨ f = .writeMultipleCoils ∨ f = .writeMultipleRegisters)
    (h : rest.length ≠ 4) : decodeResponseBody f qty rest = .error .length := by
  obtain rfl | rfl | rfl | rfl := hf
  · exact congrArg (Except.map _) (coilFields_of_length_ne h)
  · exact map_twoWords_of_length_ne _ h
  · exact map_twoWords_of_length_ne _ h
  · exact map_twoWords_of_length_ne _ h

/-- With the function code that is expected, what is left of R182 is that code's own decoder. -/
theorem decodeResponse_of_body_ok {f : FuncCode} {qty : Option Nat} {rest : List Byte} {m : Response}
    (h : decodeResponseBody f qty rest = .ok m) : decodeResponse (f.toByte :: rest) ⟨f, qty⟩ = .ok m := by
  simp [decodeResponse, h, Except.mapError]

theorem decodeResponse_of_body_error {f : FuncCode} {qty : Option Nat} {rest : List Byte} {r : FormatReason}
    (h : decodeResponseBody f qty rest = .error r) :
    decodeResponse (f.toByte :: rest) ⟨f, qty⟩ = .error (.formatError r) := by
  simp [decodeResponse, h, Except.mapError]

/-! ### The decoder before the function code -/

/-- With bit 7 set and a second byte, the slave's exception is reported whatever is expected (R182). -/
theorem decodeResponse_of_exception {fc : Byte} (h : exceptionBit fc = true) (code : Byte) (rest : List Byte)
    (e : Expect) : decodeResponse (fc :: code :: rest) e = .error (.slaveException (fc &&& 0x7F) code) := if_pos h

theorem decodeResponse_of_short_exception {fc : Byte} (h : exceptionBit fc = true) (e : Expect) :
    decodeResponse [fc] e = .error (.formatError .length) := if_pos h

theorem decodeResponse_of_unexpected {fc : Byte} {e : Expect} (h : exceptionBit fc = false) (hne : fc ≠ e.fc.toByte)
    (rest : List Byte) : decodeResponse (fc :: rest) e = .error (.formatError (.function fc)) :=
  (if_neg (by simp [h])).trans (if_pos hne)

theorem FuncCode.toByte_injective : Function.Injective FuncCode.toByte := by
  intro f g h
  have hf := FuncCode.ofByte?_toByte f
  rw [h, FuncCode.ofByte?_toByte] at hf
  exact (Option.some.inj hf).symm

/-! ### The round trip -/

/-- The tests of R184 pass on what R183 writes. -/
theorem countedData_packBits {bits : List Bool} (h : bits.length ≤ 2040) :
    countedData (BitVec.ofNat 8 (ceil8 bits.length) :: packBits bits) = .ok (packBits bits) := by
  rw [← packBits_length]
  exact countedData_eq (by rw [packBits_length]; exact ceil8_le h)

theorem countedBits_packBits {bits : List Bool} (h : bits.length ≤ 2040) :
    (countedData (BitVec.ofNat 8 (ceil8 bits.length) :: packBits bits)).bind (expectBits (some bits.length))
      = .ok bits := by
  rw [countedData_packBits h]
  exact (expectBits_of_fits (.inr ⟨rfl, packBits_length bits⟩)).trans (congrArg _ (unpackBits_packBits bits))

theorem countedBits_packBits_none {bits : List Bool} (h : bits.length ≤ 2040) :
    (countedData (BitVec.ofNat 8 (ceil8 bits.length) :: packBits bits)).bind (expectBits none)
      = .ok (bits ++ List.replicate (8 * ceil8 bits.length - bits.length) false) := by
  rw [countedData_packBits h]
  exact (expectBits_of_fits (.inl ⟨rfl, by rw [packBits_length]⟩)).trans (congrArg _ (unpackBits_packBits_padded bits))

theorem countedRegs_encodeRegs_bind {vs : List Word} (h : vs.length ≤ 127) {qty : Option Nat}
    (hq : qty = none ∨ qty = some vs.length) :
    (countedRegs (BitVec.ofNat 8 (2 * vs.length) :: encodeRegs vs)).bind (expectRegs qty) = .ok vs := by
  rw [countedRegs_encodeRegs h]
  refine expectRegs_of_fits fun q hqty => ?_
  obtain rfl | rfl := hq
  · cases hqty
  · exact Option.some.inj hqty

/-- Settles O3: a read response by its data block (`countedBits_packBits`, `countedRegs_encodeRegs_bind`), a write
response by its two fields. -/
theorem responseCodecRoundTrip : Obligations.ResponseCodecRoundTrip := by
  intro m hwf
  refine ⟨?coils, ?inputs, ?holding, ?input, ?writes⟩
  case coils =>
    rintro bits rfl
    have h : bits.length ≤ 2040 := of_decide_eq_true hwf
    exact ⟨decodeResponse_of_body_ok (f := .readCoils) (decodeResponseBody_bits_ok (countedBits_packBits h)).1,
      decodeResponse_of_body_ok (f := .readCoils) (decodeResponseBody_bits_ok (countedBits_packBits_none h)).1⟩
  case inputs =>
    rintro bits rfl
    have h : bits.length ≤ 2040 := of_decide_eq_true hwf
    exact ⟨decodeResponse_of_body_ok (f := .readDiscreteInputs) (decodeResponseBody_bits_ok (countedBits_packBits h)).2,
      decodeResponse_of_body_ok (f := .readDiscreteInputs) (decodeResponseBody_bits_ok (countedBits_packBits_none h)).2⟩
  case holding =>
    rintro vs rfl eq hq
    exact decodeResponse_of_body_ok (f := .readHoldingRegisters)
      (decodeResponseBody_registers_ok (countedRegs_encodeRegs_bind (of_decide_eq_true hwf) hq)).1
  case input =>
    rintro vs rfl eq hq
    exact decodeResponse_of_body_ok (f := .readInputRegisters)
      (decodeResponseBody_registers_ok (countedRegs_encodeRegs_bind (of_decide_eq_true hwf) hq)).2
  case writes =>
    intro hc hd hh hi eq
    cases m with
    | readCoils l => exact absurd rfl (hc l)
    | readDiscreteInputs l => exact absurd rfl (hd l)
    | readHoldingRegisters l => exact absurd rfl (hh l)
    | readInputRegisters l => exact absurd rfl (hi l)
    | writeSingleCoil a v =>
      exact decodeResponse_of_body_ok (f := .writeSingleCoil) (congrArg (Except.map _) (coilFields_be16 a v))
    | writeSingleRegister a v =>
      exact decodeResponse_of_body_ok (f := .writeSingleRegister) (map_twoWords_be16 Response.writeSingleRegister a v)
    | writeMultipleCoils a q =>
      exact decodeResponse_of_body_ok (f := .writeMultipleCoils) (map_twoWords_be16 Response.writeMultipleCoils a q)
    | writeMultipleRegisters a q =>
      exact decodeResponse_of_body_ok (f := .writeMultipleRegisters)
        (map_twoWords_be16 Response.writeMultipleRegisters a q)

/-! ### What the request decoder reports -/

theorem twoWords_ne_function (rest : List Byte) (fc : Byte) : twoWords rest ≠ .error (.function fc) := by
  unfold twoWords
  split
  · exact nofun
  · exact nofun

theorem coilFields_ne_function (rest : List Byte) (fc : Byte) : coilFields rest ≠ .error (.function fc) := by
  unfold coilFields
  split
  next hr => exact fun h => twoWords_ne_function rest fc (hr.trans (by cases h; rfl))
  next =>
    split
    · exact nofun
    · exact nofun

theorem decodeWriteMultipleCoils_ne_function (rest : List Byte) (fc : Byte) :
    decodeWriteMultipleCoils rest ≠ .error (.function fc) := by
  unfold decodeWriteMultipleCoils
  split
  · split_ifs <;> exact nofun
  · exact nofun

theorem decodeWriteMultipleRegisters_ne_function (rest : List Byte) (fc : Byte) :
    decodeWriteMultipleRegisters rest ≠ .error (.function fc) := by
  unfold decodeWriteMultipleRegisters
  split
  · split_ifs <;> exact nofun
  · exact nofun

theorem decodeRequestBody_ne_function (f : FuncCode) (rest : List Byte) (fc : Byte) :
    decodeRequestBody f rest ≠ .error (.function fc) := by
  cases f with
  | readCoils => exact map_ne_error _ (twoWords_ne_function rest fc)
  | readDiscreteInputs => exact map_ne_error _ (twoWords_ne_function rest fc)
  | readHoldingRegisters => exact map_ne_error _ (twoWords_ne_function rest fc)
  | readInputRegisters => exact map_ne_error _ (twoWords_ne_function rest fc)
  | writeSingleCoil => exact map_ne_error _ (coilFields_ne_function rest fc)
  | writeSingleRegister => exact map_ne_error _ (twoWords_ne_function rest fc)
  | writeMultipleCoils => exact decodeWriteMultipleCoils_ne_function rest fc
  | writeMultipleRegisters => exact decodeWriteMultipleRegisters_ne_function rest fc

/-- The request decoder reports a function code only where it is none of the eight (R152). -/
theorem unsupportedByte_of_decodeRequest {pdu : List Byte} {fc : Byte}
    (h : decodeRequest pdu = .error (.function fc)) : unsupportedByte fc = true := by
  cases pdu with
  | nil => cases h
  | cons b rest =>
    rw [decodeRequest] at h
    split at h
    next hb => cases h; exact FuncCode.ofByte?_eq_none.1 hb
    next f _ => exact absurd h (decodeRequestBody_ne_function f rest fc)

end Sys2Proof

namespace Sys2Proof.Machine

/-! ### The codec commands on responses -/

theorem exec_pduEncRsp_of_wf {m : Response} (s : State) (h : m.wf = true) :
    exec (.pduEncRsp m) s = .next { s with rsp := some (.ok (.bytes (encodeResponse m))) } := if_pos h

theorem exec_pduEncRsp_of_not_wf {m : Response} (s : State) (h : ¬ m.wf = true) :
    exec (.pduEncRsp m) s = .refused .messageTooLong := if_neg h

theorem exec_pduDecRsp_of_ok {bytes : List Byte} {e : Expect} {m : Response} (s : State)
    (h : decodeResponse bytes e = .ok m) :
    exec (.pduDecRsp bytes e) s = .next { s with rsp := some (.ok (.response m)) } := by
  rw [exec, execPduDecRsp, h]; rfl

theorem exec_pduDecRsp_of_error {bytes : List Byte} {e : Expect} {err : Error} (s : State)
    (h : decodeResponse bytes e = .error err) :
    exec (.pduDecRsp bytes e) s = .next { s with rsp := some (.error err) } := by
  rw [exec, execPduDecRsp, h]; rfl

/-- Settles O21: the answer is `encodeResponse` of the message exactly where the message is well formed. -/
theorem pDU_ENC_RSP_Result : Obligations.PDU_ENC_RSP_Result := by
  intro s
  refine ⟨fun _ h => exec_pduEncRsp_of_wf s (decide_eq_true h), fun _ h => exec_pduEncRsp_of_wf s (decide_eq_true h),
    fun _ h => exec_pduEncRsp_of_wf s (decide_eq_true h), fun _ h => exec_pduEncRsp_of_wf s (decide_eq_true h),
    fun _ v => ?coil, fun _ _ => exec_pduEncRsp_of_wf s rfl, fun _ _ => exec_pduEncRsp_of_wf s rfl,
    fun _ _ => exec_pduEncRsp_of_wf s rfl, fun _ h => ?longBits, fun _ h => ?longRegisters⟩
  case coil => cases v <;> exact exec_pduEncRsp_of_wf s rfl
  case longBits =>
    have hlong := mt of_decide_eq_true (Nat.not_le_of_lt h)
    exact ⟨exec_pduEncRsp_of_not_wf s hlong, exec_pduEncRsp_of_not_wf s hlong⟩
  case longRegisters =>
    have hlong := mt of_decide_eq_true (Nat.not_le_of_lt h)
    exact ⟨exec_pduEncRsp_of_not_wf s hlong, exec_pduEncRsp_of_not_wf s hlong⟩

/-- Settles O24: the two bytes by computation, and the exception bit of a code of 128 or more is set already. -/
theorem pDU_ENC_EXC_Result : Obligations.PDU_ENC_EXC_Result := by
  have hset : ∀ fc : Byte, 128 ≤ fc.toNat → fc ||| 0x80 = fc := by decide +kernel
  exact fun fc _ _ => ⟨rfl, hset fc⟩

theorem exec_pduDecRsp_of_body_ok {f : FuncCode} {qty : Option Nat} {rest : List Byte} {m : Response} (s : State)
    (h : decodeResponseBody f qty rest = .ok m) :
    exec (.pduDecRsp (f.toByte :: rest) ⟨f, qty⟩) s = .next { s with rsp := some (.ok (.response m)) } :=
  exec_pduDecRsp_of_ok s (decodeResponse_of_body_ok h)

theorem exec_pduDecRsp_of_body_error {f : FuncCode} {qty : Option Nat} {rest : List Byte} {r : FormatReason}
    (s : State) (h : decodeResponseBody f qty rest = .error r) :
    exec (.pduDecRsp (f.toByte :: rest) ⟨f, qty⟩) s = .next { s with rsp := some (.error (.formatError r)) } :=
  exec_pduDecRsp_of_error s (decodeResponse_of_body_error h)

/-- Settles O22: the tests in the order of R182, then those of R184 by the lemmas on a counted data block. -/
theorem pDU_DEC_RSP_Bits : Obligations.PDU_DEC_RSP_Bits := by
  intro s
  refine ⟨fun _ => exec_pduDecRsp_of_error s rfl,
    fun _ e h => exec_pduDecRsp_of_error s (decodeResponse_of_short_exception h e),
    fun _ code rest e h => exec_pduDecRsp_of_error s (decodeResponse_of_exception h code rest e),
    fun _ rest _ h hne => exec_pduDecRsp_of_error s (decodeResponse_of_unexpected h hne rest),
    fun f eq hf => ⟨exec_pduDecRsp_of_body_error s (decodeResponseBody_bits_error hf rfl),
      fun n data => ⟨fun hlen => ?length, fun q hlen hq hne => ?count, fun q hlen hq => ?bits⟩⟩⟩
  case length => exact exec_pduDecRsp_of_body_error s (decodeResponseBody_bits_error hf (countedBits_of_length_ne hlen))
  case count =>
    subst hq
    have hbad : (countedData (n :: data)).bind (expectBits (some q)) = .error .byteCount :=
      (countedBits_eq hlen).trans (expectBits_of_misfit (hlen ▸ hne))
    exact exec_pduDecRsp_of_body_error s (decodeResponseBody_bits_error hf hbad)
  case bits =>
    have hbits : (countedData (n :: data)).bind (expectBits eq) = .ok (unpackBits data q) :=
      (countedBits_eq hlen).trans (expectBits_of_fits (hlen ▸ hq))
    obtain ⟨hcoils, hinputs⟩ := decodeResponseBody_bits_ok hbits
    exact ⟨fun h => h ▸ exec_pduDecRsp_of_body_ok s hcoils, fun h => h ▸ exec_pduDecRsp_of_body_ok s hinputs⟩

/-- Settles O23: the register responses by the lemmas on a counted register block, the echoes by their length and, for
0x05, by their value. -/
theorem pDU_DEC_RSP_RegistersAndEchoes : Obligations.PDU_DEC_RSP_RegistersAndEchoes := by
  intro s
  refine ⟨fun f eq hf => ⟨exec_pduDecRsp_of_body_error s (decodeResponseBody_registers_error hf rfl),
      fun n data => ⟨fun hlen => ?length, fun hlen hbad => ?count, fun hlen heven hq => ?registers⟩⟩,
    fun f eq rest hf hlen => exec_pduDecRsp_of_body_error s (decodeResponseBody_write_of_length_ne eq hf hlen),
    fun eq a b c d => ⟨fun hon => ?on, fun hoff => ?off, fun hon hoff => ?badValue,
      exec_pduDecRsp_of_ok s rfl, exec_pduDecRsp_of_ok s rfl, exec_pduDecRsp_of_ok s rfl⟩⟩
  case length =>
    exact exec_pduDecRsp_of_body_error s (decodeResponseBody_registers_error hf (countedRegs_bind_of_length_ne hlen))
  case count =>
    exact exec_pduDecRsp_of_body_error s (decodeResponseBody_registers_error hf (countedRegs_bind_of_misfit hlen hbad))
  case registers =>
    obtain ⟨hholding, hinput⟩ := decodeResponseBody_registers_ok (countedRegs_bind_of_fits hlen heven hq)
    refine ⟨decodeRegs data, ?_, fun k => decodeRegs_getElem?,
      fun h => h ▸ exec_pduDecRsp_of_body_ok s hholding, fun h => h ▸ exec_pduDecRsp_of_body_ok s hinput⟩
    rw [decodeRegs_length]
    omega
  case on =>
    exact exec_pduDecRsp_of_body_ok (f := .writeSingleCoil) s
      (congrArg (Except.map _) (coilFields_of_value (v := true) (by rw [hon]; rfl)))
  case off =>
    exact exec_pduDecRsp_of_body_ok (f := .writeSingleCoil) s
      (congrArg (Except.map _) (coilFields_of_value (v := false) (by rw [hoff]; rfl)))
  case badValue =>
    exact exec_pduDecRsp_of_body_error (f := .writeSingleCoil) s
      (congrArg (Except.map _) (coilFields_of_bad_value hon hoff))

/-! ### The response rows -/

section Row

variable (s : State) {f : FuncCode} {e : Expect} {qty : Option Nat}

theorem next_settle_ifExpected_of_ne (h : e.fc ≠ f) (r : Except FormatReason Response) :
    (.next (s.settle (ifExpected f e r)) : Host.Outcome State Fault Refusal)
      = .next { s with rsp := some (.error (.formatError (.function f.toByte))) } := by
  rw [ifExpected, if_pos fun hb => h (FuncCode.toByte_injective hb).symm]
  rfl

theorem next_settle_ifExpected_ok (m : Response) :
    (.next (s.settle (ifExpected f ⟨f, qty⟩ (.ok m))) : Host.Outcome State Fault Refusal)
      = .next { s with rsp := some (.ok (.response m)) } := by
  rw [ifExpected, if_neg (not_not_intro rfl)]
  rfl

theorem next_settle_ifExpected_error (r : FormatReason) :
    (.next (s.settle (ifExpected f ⟨f, qty⟩ (.error r))) : Host.Outcome State Fault Refusal)
      = .next { s with rsp := some (.error (.formatError r)) } := by
  rw [ifExpected, if_neg (not_not_intro rfl)]
  rfl

theorem exec_rspReadCoils {data : List Byte} (h : data.length ≤ 255) : exec (.rspReadCoils e data) s
    = .next (s.settle (ifExpected .readCoils e ((expectBits e.qty data).map .readCoils))) :=
  if_neg (Nat.not_lt_of_le h)

theorem exec_rspReadDiscreteInputs {data : List Byte} (h : data.length ≤ 255) :
    exec (.rspReadDiscreteInputs e data) s
      = .next (s.settle (ifExpected .readDiscreteInputs e ((expectBits e.qty data).map .readDiscreteInputs))) :=
  if_neg (Nat.not_lt_of_le h)

theorem exec_rspReadHoldingRegisters {vs : List Word} (h : vs.length ≤ 127) :
    exec (.rspReadHoldingRegisters e vs) s
      = .next (s.settle (ifExpected .readHoldingRegisters e ((expectRegs e.qty vs).map .readHoldingRegisters))) :=
  if_neg (Nat.not_lt_of_le h)

theorem exec_rspReadInputRegisters {vs : List Word} (h : vs.length ≤ 127) :
    exec (.rspReadInputRegisters e vs) s
      = .next (s.settle (ifExpected .readInputRegisters e ((expectRegs e.qty vs).map .readInputRegisters))) :=
  if_neg (Nat.not_lt_of_le h)

/-- The two bit rows, where the function code is the expected one and the quantity fits (R184, R186). -/
theorem exec_bitRows_of_fits {data : List Byte} (hlen : data.length ≤ 255) {q : Nat}
    (h : (qty = none ∧ q = 8 * data.length) ∨ (qty = some q ∧ data.length = ceil8 q)) :
    exec (.rspReadCoils ⟨.readCoils, qty⟩ data) s
      = .next { s with rsp := some (.ok (.response (.readCoils (unpackBits data q)))) } ∧
    exec (.rspReadDiscreteInputs ⟨.readDiscreteInputs, qty⟩ data) s
      = .next { s with rsp := some (.ok (.response (.readDiscreteInputs (unpackBits data q)))) } := by
  rw [exec_rspReadCoils s hlen, exec_rspReadDiscreteInputs s hlen, expectBits_of_fits h]
  exact ⟨next_settle_ifExpected_ok s _, next_settle_ifExpected_ok s _⟩

theorem exec_bitRows_of_misfit {data : List Byte} (hlen : data.length ≤ 255) {q : Nat} (h : data.length ≠ ceil8 q) :
    exec (.rspReadCoils ⟨.readCoils, some q⟩ data) s
      = .next { s with rsp := some (.error (.formatError .byteCount)) } ∧
    exec (.rspReadDiscreteInputs ⟨.readDiscreteInputs, some q⟩ data) s
      = .next { s with rsp := some (.error (.formatError .byteCount)) } := by
  rw [exec_rspReadCoils s hlen, exec_rspReadDiscreteInputs s hlen, expectBits_of_misfit h]
  exact ⟨next_settle_ifExpected_error s _, next_settle_ifExpected_error s _⟩

/-- The two register rows, where the function code is the expected one and the quantity fits (R188, R190). -/
theorem exec_registerRows_of_fits {vs : List Word} (hlen : vs.length ≤ 127)
    (h : ∀ q, qty = some q → vs.length = q) :
    exec (.rspReadHoldingRegisters ⟨.readHoldingRegisters, qty⟩ vs) s
      = .next { s with rsp := some (.ok (.response (.readHoldingRegisters vs))) } ∧
    exec (.rspReadInputRegisters ⟨.readInputRegisters, qty⟩ vs) s
      = .next { s with rsp := some (.ok (.response (.readInputRegisters vs))) } := by
  rw [exec_rspReadHoldingRegisters s hlen, exec_rspReadInputRegisters s hlen, expectRegs_of_fits h]
  exact ⟨next_settle_ifExpected_ok s _, next_settle_ifExpected_ok s _⟩

theorem exec_registerRows_of_misfit {vs : List Word} (hlen : vs.length ≤ 127) {q : Nat} (h : vs.length ≠ q) :
    exec (.rspReadHoldingRegisters ⟨.readHoldingRegisters, some q⟩ vs) s
      = .next { s with rsp := some (.error (.formatError .byteCount)) } ∧
    exec (.rspReadInputRegisters ⟨.readInputRegisters, some q⟩ vs) s
      = .next { s with rsp := some (.error (.formatError .byteCount)) } := by
  rw [exec_rspReadHoldingRegisters s hlen, exec_rspReadInputRegisters s hlen, expectRegs_of_misfit h]
  exact ⟨next_settle_ifExpected_error s _, next_settle_ifExpected_error s _⟩

end Row

/-- Settles O25: the function-code match first, then the expected quantity against the data. -/
theorem responseReadRows : Obligations.ResponseReadRows := by
  refine ⟨fun data s hlen => ?bitRows, fun vs s hlen => ?registerRows⟩
  case bitRows =>
    obtain ⟨hcoils, hinputs⟩ := exec_bitRows_of_fits s hlen (.inl ⟨rfl, rfl⟩)
    exact ⟨fun _ _ hf => (exec_rspReadCoils s hlen).trans (next_settle_ifExpected_of_ne s hf _),
      fun _ _ hf => (exec_rspReadDiscreteInputs s hlen).trans (next_settle_ifExpected_of_ne s hf _),
      hcoils, hinputs, fun _ hq => exec_bitRows_of_fits s hlen (.inr ⟨rfl, hq⟩),
      fun _ hq => exec_bitRows_of_misfit s hlen hq⟩
  case registerRows =>
    refine ⟨fun _ _ hf => (exec_rspReadHoldingRegisters s hlen).trans (next_settle_ifExpected_of_ne s hf _),
      fun _ _ hf => (exec_rspReadInputRegisters s hlen).trans (next_settle_ifExpected_of_ne s hf _),
      fun eq hq => exec_registerRows_of_fits s hlen fun q hsome => ?_,
      fun _ hq => exec_registerRows_of_misfit s hlen hq.symm⟩
    obtain rfl | rfl := hq
    · cases hsome
    · exact Option.some.inj hsome

/-- Settles O26: a write row has nothing left to check but the function code. -/
theorem responseWriteAndExceptionRows : Obligations.ResponseWriteAndExceptionRows :=
  fun s _ _ _ _ => ⟨next_settle_ifExpected_ok s _, next_settle_ifExpected_ok s _,
    next_settle_ifExpected_ok s _, next_settle_ifExpected_ok s _,
    fun _ hf => next_settle_ifExpected_of_ne s hf _, fun _ hf => next_settle_ifExpected_of_ne s hf _,
    fun _ hf => next_settle_ifExpected_of_ne s hf _, fun _ hf => next_settle_ifExpected_of_ne s hf _,
    fun _ _ => rfl⟩

/-! ### A presented PDU and its command -/

/-- A response PDU with a supported function code: the function-code match, then that code's own decoder (R182). -/
theorem exec_pduDecRsp_toByte (f : FuncCode) (rest : List Byte) (e : Expect) (s : State) :
    exec (.pduDecRsp (f.toByte :: rest) e) s
      = .next (s.settle (ifExpected f e (decodeResponseBody f e.qty rest))) := by
  obtain ⟨g, qty⟩ := e
  by_cases hf : f = g
  · subst hf
    simp [exec, execPduDecRsp, decodeResponse, ifExpected]
  · have hb : f.toByte ≠ g.toByte := FuncCode.toByte_injective.ne hf
    simp [exec, execPduDecRsp, decodeResponse, ifExpected, hb, Except.map]

/-- A response row makes the checks of its function code's decoder that its own layout leaves open (R182). -/
theorem exec_of_decodeResponseRow {f : FuncCode} {e : Expect} {rest : List Byte} {i : Instr} (s : State)
    (h : decodeResponseRow f e rest = .ok i) :
    exec i s = .next (s.settle (ifExpected f e (decodeResponseBody f e.qty rest))) := by
  cases f with
  | readCoils =>
    obtain ⟨data, hdata, rfl⟩ := map_eq_ok h
    rw [exec_rspReadCoils s (length_le_of_countedData hdata), decodeResponseBody, hdata]; rfl
  | readDiscreteInputs =>
    obtain ⟨data, hdata, rfl⟩ := map_eq_ok h
    rw [exec_rspReadDiscreteInputs s (length_le_of_countedData hdata), decodeResponseBody, hdata]; rfl
  | readHoldingRegisters =>
    obtain ⟨vs, hvs, rfl⟩ := map_eq_ok h
    rw [exec_rspReadHoldingRegisters s (length_le_of_countedRegs hvs), decodeResponseBody, hvs]; rfl
  | readInputRegisters =>
    obtain ⟨vs, hvs, rfl⟩ := map_eq_ok h
    rw [exec_rspReadInputRegisters s (length_le_of_countedRegs hvs), decodeResponseBody, hvs]; rfl
  | writeSingleCoil => obtain ⟨p, hp, rfl⟩ := map_eq_ok h; rw [decodeResponseBody, hp]; rfl
  | writeSingleRegister => obtain ⟨p, hp, rfl⟩ := map_eq_ok h; rw [decodeResponseBody, hp]; rfl
  | writeMultipleCoils => obtain ⟨p, hp, rfl⟩ := map_eq_ok h; rw [decodeResponseBody, hp]; rfl
  | writeMultipleRegisters => obtain ⟨p, hp, rfl⟩ := map_eq_ok h; rw [decodeResponseBody, hp]; rfl

/-- A function code masked when it was decoded is not changed by RSP.EXCEPTION's own mask (R182). -/
theorem exec_rspException_masked (fc code : Byte) (s : State) :
    exec (.rspException (fc &&& 0x7F) code) s
      = .next { s with rsp := some (.error (.slaveException (fc &&& 0x7F) code)) } := by
  have hmask : fc &&& 0x7F &&& 0x7F = fc &&& 0x7F := by rw [BitVec.and_assoc, BitVec.and_self]
  rw [exec, execRspException, hmask]
  rfl

/-- A response PDU that decodes to a row: the row is what `PDU.DEC_RSP` makes of it (log entry 24). -/
theorem exec_of_decodeResponseOffer {pdu : List Byte} {e : Expect} {i : Instr} (s : State)
    (h : decodeResponseOffer pdu e = .ok i) : exec i s = exec (.pduDecRsp pdu e) s := by
  unfold decodeResponseOffer at h
  split at h
  next => cases h
  next fc rest =>
    split_ifs at h with hexc
    · split at h
      next => cases h
      next code tail =>
        cases h
        rw [exec_rspException_masked, exec_pduDecRsp_of_error s (decodeResponse_of_exception hexc code tail e)]
    · split at h
      next => cases h
      next f hf =>
        rw [← FuncCode.toByte_of_ofByte? hf, exec_pduDecRsp_toByte]
        cases hrow : decodeResponseRow f e rest with
        | error r => rw [hrow] at h; cases h
        | ok j => rw [hrow] at h; cases h; exact exec_of_decodeResponseRow s hrow

theorem exec_reqUnsupported {fc : Byte} (s : State) (h : unsupportedByte fc = true) :
    exec (.reqUnsupported fc) s = answerSlave (slaveUnsupported fc) s := if_pos h

theorem slaveExec_of_ok {pdu : List Byte} {m : Request} (h : decodeRequest pdu = .ok m) :
    slaveExec pdu = slaveRequest m := by
  funext s
  rw [slaveExec, h]

theorem slaveExec_of_error {pdu : List Byte} {r : FormatReason} (h : decodeRequest pdu = .error r) :
    slaveExec pdu = slaveRejected pdu r := by
  funext s
  rw [slaveExec, h]

theorem step_request (pdu : List Byte) (s : State) (rest : List Offer) :
    step { s with pending := .request pdu :: rest } = exec (.slaveExec pdu) { s with pending := rest } := by
  rw [step_cons rfl, decode, decodeRequestOffer, exec, execSlaveExec]
  cases hd : decodeRequest pdu with
  | ok m => rw [slaveExec_of_ok hd]; exact exec_ofRequest m _
  | error r =>
    rw [slaveExec_of_error hd]
    cases r with
    | function fc => exact exec_reqUnsupported _ (unsupportedByte_of_decodeRequest hd)
    | _ => rfl

theorem step_response (pdu : List Byte) (e : Expect) (s : State) (rest : List Offer) :
    step { s with pending := .response pdu e :: rest } = exec (.pduDecRsp pdu e) { s with pending := rest } := by
  rw [step_cons rfl, decode]
  cases hd : decodeResponseOffer pdu e with
  | ok i => exact exec_of_decodeResponseOffer _ hd
  | error err => cases err <;> rfl

/-- Settles O48: where the PDU decodes, its row is the command's own case; where it does not, it is answered or
reported by the command's own rule. -/
theorem presentedPduIsItsCommand : Obligations.PresentedPduIsItsCommand :=
  fun pdu e s rest => ⟨step_request pdu s rest, step_response pdu e s rest⟩

end Sys2Proof.Machine

/-! The family 43_framing.md. Both error checks fold the bytes of a message with an operation that is injective in each
argument, so that one changed byte changes the value (`set_eq_self_of_foldl_set_eq`), and both give zero on the message
with its own check behind it. Each unframer is stated once on a wire written as its parts; the statements about frames
are read off these equations. -/

namespace Sys2Proof.Machine

/-! ### Folds -/

theorem foldl_injective {α β : Type} {f : β → α → β} (hf : ∀ a, Function.Injective fun c => f c a) (l : List α) :
    Function.Injective fun c => l.foldl f c := by
  induction l with
  | nil => exact fun _ _ h => h
  | cons a l ih => exact fun _ _ h => hf a (ih h)

/-- A fold that is injective in each argument tells a list from itself with one element changed. -/
theorem set_eq_self_of_foldl_set_eq {α β : Type} {f : β → α → β} (hf : ∀ a, Function.Injective fun c => f c a)
    (hf' : ∀ c, Function.Injective (f c)) {l : List α} {k : Nat} {x : α} {c : β}
    (h : (l.set k x).foldl f c = l.foldl f c) : l.set k x = l := by
  induction l generalizing k c with
  | nil => rfl
  | cons a l ih =>
    cases k with
    | zero => rw [List.set_cons_zero, hf' c (foldl_injective hf l h)]
    | succ k => rw [List.set_cons_succ, ih h]

theorem getElem?_of_set_eq_self {α : Type} {l : List α} {k : Nat} {x : α} (hk : k < l.length) (h : l.set k x = l) :
    l[k]? = some x := by
  rw [← h, List.getElem?_set_self hk]

/-! ### The CRC register -/

theorem crcShifts_eq_iterate (n : Nat) (c : Word) : crcShifts n c = crcShift^[n] c := by
  induction n generalizing c with
  | zero => rfl
  | succ n ih => exact ih _

/-- Bit 15 after a shift is the bit shifted out: the polynomial has its top bit set. -/
theorem crcShift_getLsbD_top (c : Word) : (crcShift c).getLsbD 15 = c.getLsbD 0 := by
  unfold crcShift
  split_ifs with h
  · simpa using h
  · simpa using h

/-- The bit shifted out is known from the result, and the other bits with it. -/
theorem crcShift_injective : Function.Injective crcShift := by
  intro a b h
  have hout : a.getLsbD 0 = b.getLsbD 0 := by rw [← crcShift_getLsbD_top a, h, crcShift_getLsbD_top]
  have hrest : a >>> 1 = b >>> 1 := by
    unfold crcShift at h
    rw [hout] at h
    split_ifs at h
    · exact (BitVec.xor_left_inj _).1 h
    · exact h
  apply BitVec.eq_of_getLsbD_eq
  rintro (_ | i) -
  · exact hout
  · simpa [Nat.add_comm 1 i] using congrArg (·.getLsbD i) hrest

theorem crcShifts_injective (n : Nat) : Function.Injective (crcShifts n) := by
  rw [funext (crcShifts_eq_iterate n)]
  exact crcShift_injective.iterate n

/-- Where only zeros are shifted out, the polynomial never enters. -/
theorem crcShifts_of_low_bits_zero {n : Nat} {c : Word} (h : ∀ i < n, c.getLsbD i = false) :
    crcShifts n c = c >>> n := by
  induction n generalizing c with
  | zero => simp [crcShifts]
  | succ n ih =>
    have hstep : crcShift c = c >>> 1 := if_neg (by rw [h 0 n.succ_pos]; decide)
    rw [crcShifts, hstep, ih fun i hi => ?_, ← BitVec.shiftRight_add, Nat.add_comm 1 n]
    rw [BitVec.getLsbD_ushiftRight, Nat.add_comm]
    exact h _ (Nat.succ_lt_succ hi)

theorem crcByte_injective_register (b : Byte) : Function.Injective fun c => crcByte c b :=
  fun _ _ h => (BitVec.xor_left_inj _).1 (crcShifts_injective 8 h)

theorem crcByte_injective_byte (c : Word) : Function.Injective (crcByte c) := by
  intro a b h
  have hw : a.setWidth 16 = b.setWidth 16 := (BitVec.xor_right_inj _).1 (crcShifts_injective 8 h)
  apply BitVec.eq_of_toNat_eq
  have := congrArg BitVec.toNat hw
  simp at this; omega

theorem u16be_getLsbD (hi lo : Byte) (i : Nat) :
    (u16be hi lo).getLsbD i = if i < 8 then lo.getLsbD i else hi.getLsbD (i - 8) := by
  rw [u16be]
  exact BitVec.getLsbD_append

theorem u16be_xor_low (hi lo : Byte) : u16be hi lo ^^^ lo.setWidth 16 = u16be hi 0 := by
  apply BitVec.eq_of_getLsbD_eq
  intro i hi16
  rw [BitVec.getLsbD_xor, BitVec.getLsbD_setWidth, u16be_getLsbD, u16be_getLsbD, decide_eq_true hi16]
  split_ifs with h
  · simp
  · simp [BitVec.getLsbD_of_ge lo i (Nat.le_of_not_lt h)]

/-- The low byte of the register folded into itself leaves the high byte. -/
theorem crcByte_u16be_low (hi lo : Byte) : crcByte (u16be hi lo) lo = hi.setWidth 16 := by
  rw [crcByte, u16be_xor_low, crcShifts_of_low_bits_zero fun i hi8 => ?_]
  · apply BitVec.eq_of_toNat_eq
    rw [BitVec.toNat_ushiftRight, u16be_toNat, Nat.shiftRight_eq_div_pow]
    simp; omega
  · rw [u16be_getLsbD, if_pos hi8]
    exact BitVec.getLsbD_zero

theorem crcByte_self (b : Byte) : crcByte (b.setWidth 16) b = 0 := by
  rw [crcByte, BitVec.xor_self]
  rfl

@[simp] theorem crc16_append_byte (m : List Byte) (b : Byte) : crc16 (m ++ [b]) = crcByte (crc16 m) b :=
  List.foldl_append

/-- R212: folding in two bytes is injective, and takes the register they spell to zero. -/
theorem crc16_append_two_eq_zero {m : List Byte} {lo hi : Byte} :
    crc16 (m ++ [lo, hi]) = 0 ↔ crc16 m = u16be hi lo := by
  have hzero : [lo, hi].foldl crcByte (u16be hi lo) = 0 := by
    rw [List.foldl_cons, crcByte_u16be_low]; exact crcByte_self hi
  have happ : crc16 (m ++ [lo, hi]) = [lo, hi].foldl crcByte (crc16 m) := List.foldl_append
  rw [happ, ← hzero]
  exact (foldl_injective crcByte_injective_register [lo, hi]).eq_iff

theorem crc16_append_le16 (m : List Byte) : crc16 (m ++ le16 (crc16 m)) = 0 :=
  crc16_append_two_eq_zero.2 (u16be_hi_lo _).symm

/-! ### The byte sum -/

theorem byteSum_append_byte (m : List Byte) (x : Byte) : byteSum (m ++ [x]) = byteSum m + x := List.foldl_append

theorem byteSum_toNat (m : List Byte) : (byteSum m).toNat = (m.map BitVec.toNat).sum % 256 := by
  induction m using List.reverseRecOn with
  | nil => rfl
  | append_singleton m x ih =>
    rw [byteSum_append_byte, BitVec.toNat_add, ih]
    simp

/-- R213: the one byte that takes the sum to zero is its two's complement. -/
theorem byteSum_append_eq_zero {m : List Byte} {x : Byte} : byteSum (m ++ [x]) = 0 ↔ lrc m = x := by
  rw [byteSum_append_byte, lrc]
  constructor <;> intro h <;> bv_omega

theorem sum_mod_eq_zero_iff_lrc {m : List Byte} {x : Byte} :
    ((m.map BitVec.toNat).sum + x.toNat) % 256 = 0 ↔ lrc m = x := by
  have hs := byteSum_toNat (m ++ [x])
  rw [← byteSum_append_eq_zero, ← BitVec.toNat_inj, hs]
  simp

theorem lrc_eq_ofNat (m : List Byte) : lrc m = BitVec.ofNat 8 ((256 - (m.map BitVec.toNat).sum % 256) % 256) := by
  rw [← byteSum_toNat, lrc]
  bv_omega

/-- Settles O6: the recurrence by the iterate, the residue by `crc16_append_le16`. -/
theorem cRC16_Result : Obligations.CRC16_Result := by
  refine ⟨fun _ _ => rfl, rfl, fun bytes b => ?_, by decide +kernel, by decide +kernel, crc16_append_le16⟩
  rw [crc16_append_byte, crcByte, crcShifts_eq_iterate]
  rfl

/-- Settles O7: the fold is the sum modulo 256, and its negation takes it to zero. -/
theorem lRC_Result : Obligations.LRC_Result :=
  fun bytes s => ⟨by rw [← lrc_eq_ofNat]; rfl, sum_mod_eq_zero_iff_lrc.2 rfl⟩

/-- Settles O8: the residue equivalences of the two checks. -/
theorem errorCheckResidues : Obligations.ErrorCheckResidues :=
  ⟨fun _ _ _ => crc16_append_two_eq_zero, fun _ _ => sum_mod_eq_zero_iff_lrc⟩

/-! ### Framing: the PDU lengths taken -/

theorem pduFits_eq_true {c : Cfg} {pdu : List Byte} :
    pduFits c pdu = true ↔ 1 ≤ pdu.length ∧ pdu.length ≤ c.maxPdu := by
  simp [pduFits]

theorem pduFits_of_bad_length {c : Cfg} {pdu : List Byte} (h : pdu.length = 0 ∨ c.maxPdu < pdu.length) :
    ¬ pduFits c pdu = true := by
  rw [pduFits_eq_true]; omega

/-! ### RTU -/

theorem exec_rtuFrame {pdu : List Byte} (unit : Byte) {s : State} (h : 1 ≤ pdu.length)
    (h' : pdu.length ≤ s.cfg.maxPdu) : exec (.rtuFrame unit pdu) s
      = .next { s with rsp := some (.ok (.bytes (rtuFrame unit pdu))) } :=
  if_pos (pduFits_eq_true.2 ⟨h, h'⟩)

theorem exec_rtuUnframe_of_ok {wire pdu : List Byte} {unit : Byte} {s : State}
    (h : rtuUnframe s.cfg wire = .ok (unit, pdu)) :
    exec (.rtuUnframe wire) s = .next { s with rsp := some (.ok (.unframed unit pdu)) } := by
  rw [exec, execRtuUnframe, h]; rfl

theorem exec_rtuUnframe_of_error {wire : List Byte} {e : Error} {s : State} (h : rtuUnframe s.cfg wire = .error e) :
    exec (.rtuUnframe wire) s = .next { s with rsp := some (.error e) } := by
  rw [exec, execRtuUnframe, h]; rfl

/-- R216 on a wire written as unit id, PDU and two CRC bytes. -/
theorem rtuUnframe_parts (c : Cfg) (unit lo hi : Byte) {pdu : List Byte} (h : 1 ≤ pdu.length) :
    rtuUnframe c (unit :: pdu ++ [lo, hi]) =
      if c.maxPdu < pdu.length then .error (.ioError .length)
      else if crc16 (unit :: pdu) = u16be hi lo then .ok (unit, pdu) else .error (.ioError .checksum) := by
  have hlen : (unit :: pdu ++ [lo, hi]).length = pdu.length + 3 := by simp
  have hbody : (unit :: pdu ++ [lo, hi]).take (pdu.length + 1) = unit :: pdu := by simp
  have hhi : (unit :: pdu ++ [lo, hi]).getD (pdu.length + 2) 0 = hi := by simp
  have hlo : (unit :: pdu ++ [lo, hi]).getD (pdu.length + 1) 0 = lo := by simp
  unfold rtuUnframe
  simp only [hlen, Nat.reduceSubDiff, hbody, hhi, hlo, ite_not]
  rw [if_neg (by omega)]
  simp only [gt_iff_lt, Nat.add_lt_add_iff_right]
  rfl

theorem rtuUnframe_of_short (c : Cfg) {wire : List Byte} (h : wire.length < 4) :
    rtuUnframe c wire = .error (.ioError .length) := if_pos h

/-- Settles O9: the length test decides between the frame and the refusal. -/
theorem rTU_FRAME_Result : Obligations.RTU_FRAME_Result :=
  fun unit _ _ => ⟨exec_rtuFrame unit, fun h => if_neg (pduFits_of_bad_length h)⟩

theorem toNat_eq_iff_eq_u16be {w : Word} {lo hi : Byte} : w.toNat = lo.toNat + 256 * hi.toNat ↔ w = u16be hi lo := by
  rw [← BitVec.toNat_inj, u16be_toNat]; omega

/-- Settles O10: the tests in the order of `rtuUnframe_parts`. -/
theorem rTU_UNFRAME_Result : Obligations.RTU_UNFRAME_Result := by
  refine fun s => ⟨fun _ h => exec_rtuUnframe_of_error (rtuUnframe_of_short _ h), fun unit lo hi pdu h => ?_⟩
  have hp := rtuUnframe_parts s.cfg unit lo hi h
  refine ⟨fun hlen => exec_rtuUnframe_of_error (hp.trans (if_pos hlen)), fun hlen hcrc => ?_, fun hlen hcrc => ?_⟩
  · rw [if_neg (Nat.not_lt.2 hlen), if_neg (mt toNat_eq_iff_eq_u16be.2 hcrc)] at hp
    exact exec_rtuUnframe_of_error hp
  · rw [if_neg (Nat.not_lt.2 hlen), if_pos (toNat_eq_iff_eq_u16be.1 hcrc)] at hp
    exact exec_rtuUnframe_of_ok hp

/-! ### ASCII -/

theorem exec_ascFrame {pdu : List Byte} (unit : Byte) {s : State} (h : 1 ≤ pdu.length)
    (h' : pdu.length ≤ s.cfg.maxPdu) : exec (.ascFrame unit pdu) s
      = .next { s with rsp := some (.ok (.bytes (ascFrame unit pdu))) } :=
  if_pos (pduFits_eq_true.2 ⟨h, h'⟩)

theorem exec_ascUnframe_of_ok {wire pdu : List Byte} {unit : Byte} {s : State}
    (h : ascUnframe s.cfg wire = .ok (unit, pdu)) :
    exec (.ascUnframe wire) s = .next { s with rsp := some (.ok (.unframed unit pdu)) } := by
  rw [exec, execAscUnframe, h]; rfl

theorem exec_ascUnframe_of_error {wire : List Byte} {e : Error} {s : State} (h : ascUnframe s.cfg wire = .error e) :
    exec (.ascUnframe wire) s = .next { s with rsp := some (.error e) } := by
  rw [exec, execAscUnframe, h]; rfl

/-- R224 on decoded bytes written as unit id, PDU and LRC. -/
theorem ascBytes_parts (c : Cfg) (unit x : Byte) (pdu : List Byte) :
    ascBytes c (unit :: pdu ++ [x]) =
      if c.maxPdu < pdu.length then .error (.ioError .length)
      else if lrc (unit :: pdu) = x then .ok (unit, pdu) else .error (.ioError .checksum) := by
  have hlen : (unit :: pdu ++ [x]).length = pdu.length + 2 := by simp
  have hbody : (unit :: pdu ++ [x]).take (pdu.length + 1) = unit :: pdu := by simp
  have hx : (unit :: pdu ++ [x]).getD (pdu.length + 1) 0 = x := by simp
  unfold ascBytes
  simp only [hlen, Nat.reduceSubDiff, Nat.add_sub_cancel, hbody, hx, ite_not]
  rfl

/-- R224 on a wire written as its first byte, what it carries, and its last two. -/
theorem ascUnframe_parts (c : Cfg) (a x y : Byte) {chars : List Byte} (h : 6 ≤ chars.length) :
    ascUnframe c (a :: chars ++ [x, y]) =
      if a = 0x3A ∧ x = 0x0D ∧ y = 0x0A then
        (hexDecode c.hexAcceptLower chars).elim (.error (.ioError .hex)) (ascBytes c)
      else .error (.ioError .format) := by
  have hlen : (a :: chars ++ [x, y]).length = chars.length + 3 := by simp
  have ha : (a :: chars ++ [x, y]).getD 0 0 = a := rfl
  have hx : (a :: chars ++ [x, y]).getD (chars.length + 1) 0 = x := by simp
  have hy : (a :: chars ++ [x, y]).getD (chars.length + 2) 0 = y := by simp
  have hchars : ((a :: chars ++ [x, y]).take (chars.length + 1)).drop 1 = chars := by simp
  unfold ascUnframe
  simp only [hlen, Nat.reduceSubDiff, hchars, ha, hx, hy]
  rw [if_neg (by omega)]
  by_cases hcolon : a = 0x3A
  · by_cases hend : x = 0x0D ∧ y = 0x0A
    · rw [if_neg (not_not.2 hcolon), if_neg (by tauto), if_pos ⟨hcolon, hend⟩]
      cases hexDecode c.hexAcceptLower chars <;> rfl
    · rw [if_neg (not_not.2 hcolon), if_pos (by tauto), if_neg (by tauto)]
  · rw [if_pos hcolon, if_neg (by tauto)]

theorem ascUnframe_of_short (c : Cfg) {wire : List Byte} (h : wire.length < 9) :
    ascUnframe c wire = .error (.ioError .format) := if_pos h

/-- Every wire long enough has the form the unframers take apart. -/
theorem exists_eq_cons_append_pair {α : Type} {l : List α} (h : 3 ≤ l.length) :
    ∃ a m x y, l = a :: m ++ [x, y] ∧ m.length + 3 = l.length := by
  obtain rfl | ⟨l, y, rfl⟩ := l.eq_nil_or_concat
  · simp at h
  obtain rfl | ⟨l, x, rfl⟩ := l.eq_nil_or_concat
  · simp at h
  cases l with
  | nil => simp at h
  | cons a m => exact ⟨a, m, x, y, by simp, by simp⟩

/-- R224: without the colon or the line end. -/
theorem ascUnframe_of_not_delimited (c : Cfg) {wire : List Byte} (h : 9 ≤ wire.length)
    (hd : wire.head? ≠ some 0x3A ∨ wire.drop (wire.length - 2) ≠ [0x0D, 0x0A]) :
    ascUnframe c wire = .error (.ioError .format) := by
  obtain ⟨a, chars, x, y, rfl, hlen⟩ := exists_eq_cons_append_pair (show 3 ≤ wire.length by omega)
  rw [ascUnframe_parts c a x y (by omega), if_neg]
  rintro ⟨rfl, rfl, rfl⟩
  simp at hd

/-- Past the delimiters, the outcome is that of the decoded bytes (R224). -/
theorem ascUnframe_of_hexDecode {c : Cfg} {chars bytes : List Byte} (h : 6 ≤ chars.length)
    (hd : hexDecode c.hexAcceptLower chars = some bytes) :
    ascUnframe c ([0x3A] ++ chars ++ [0x0D, 0x0A]) = ascBytes c bytes := by
  refine (ascUnframe_parts c 0x3A 0x0D 0x0A h).trans ?_
  rw [if_pos ⟨rfl, rfl, rfl⟩, hd, Option.elim_some]

theorem ascUnframe_of_not_hex {c : Cfg} {chars : List Byte} (h : 6 ≤ chars.length)
    (hd : hexDecode c.hexAcceptLower chars = none) :
    ascUnframe c ([0x3A] ++ chars ++ [0x0D, 0x0A]) = .error (.ioError .hex) := by
  refine (ascUnframe_parts c 0x3A 0x0D 0x0A h).trans ?_
  rw [if_pos ⟨rfl, rfl, rfl⟩, hd, Option.elim_none]

theorem ascUnframe_hexParts {c : Cfg} {chars pdu : List Byte} {unit x : Byte} (h : 1 ≤ pdu.length)
    (hd : hexDecode c.hexAcceptLower chars = some (unit :: pdu ++ [x])) :
    ascUnframe c ([0x3A] ++ chars ++ [0x0D, 0x0A]) =
      if c.maxPdu < pdu.length then .error (.ioError .length)
      else if lrc (unit :: pdu) = x then .ok (unit, pdu) else .error (.ioError .checksum) := by
  have hlen := (hexDecode_eq_some hd).1
  rw [ascUnframe_of_hexDecode (by simp at hlen; omega) hd, ascBytes_parts]

/-- Settles O13: the length test decides between the frame and the refusal. -/
theorem aSC_FRAME_Result : Obligations.ASC_FRAME_Result :=
  fun unit pdu _ => ⟨fun h h' => ⟨exec_ascFrame unit h h', by simp; omega⟩, fun h => if_neg (pduFits_of_bad_length h)⟩

/-- Settles O14: delimiters and digits by one lemma each, then the tests in the order of `ascUnframe_hexParts`. -/
theorem aSC_UNFRAME_Result : Obligations.ASC_UNFRAME_Result := by
  refine fun s => ⟨fun _ h => exec_ascUnframe_of_error (ascUnframe_of_short _ h),
    fun _ h hd => exec_ascUnframe_of_error (ascUnframe_of_not_delimited _ h hd),
    fun _ h hd => exec_ascUnframe_of_error (ascUnframe_of_not_hex h hd), fun chars pdu unit x h hd => ?_⟩
  have hp := ascUnframe_hexParts h hd
  refine ⟨fun hlen => exec_ascUnframe_of_error (hp.trans (if_pos hlen)), fun hlen hlrc => ?_, fun hlen hlrc => ?_⟩
  · rw [if_neg (Nat.not_lt.2 hlen), if_neg hlrc] at hp
    exact exec_ascUnframe_of_error hp
  · rw [if_neg (Nat.not_lt.2 hlen), if_pos hlrc] at hp
    exact exec_ascUnframe_of_ok hp

/-! ### MBAP -/

theorem exec_mbapFrame {pdu : List Byte} (tid : Word) (unit : Byte) {s : State} (hm : s.cfg.mbapPresent = true)
    (h : 1 ≤ pdu.length) (h' : pdu.length ≤ s.cfg.maxPdu) : exec (.mbapFrame tid unit pdu) s
      = .next { s with rsp := some (.ok (.bytes (mbapFrame tid unit pdu))) } :=
  (if_neg (by simp [hm])).trans (if_pos (pduFits_eq_true.2 ⟨h, h'⟩))

theorem exec_mbapUnframe_of_ok {wire pdu : List Byte} {tid : Word} {unit : Byte} {s : State}
    (hm : s.cfg.mbapPresent = true) (h : mbapUnframe wire = .ok (tid, unit, pdu)) :
    exec (.mbapUnframe wire) s = .next { s with rsp := some (.ok (.mbapUnframed tid unit pdu)) } := by
  rw [exec, execMbapUnframe, if_neg (by simp [hm]), h]; rfl

theorem exec_mbapUnframe_of_error {wire : List Byte} {e : Error} {s : State}
    (hm : s.cfg.mbapPresent = true) (h : mbapUnframe wire = .error e) :
    exec (.mbapUnframe wire) s = .next { s with rsp := some (.error e) } := by
  rw [exec, execMbapUnframe, if_neg (by simp [hm]), h]; rfl

theorem mbapUnframe_of_short {wire : List Byte} (h : wire.length < 8) :
    mbapUnframe wire = .error (.formatError .length) := by
  unfold mbapUnframe
  split
  next => simp at h; omega
  next => rfl

/-- R233 on a wire written as its header and its PDU. -/
theorem mbapUnframe_parts (t1 t0 p1 p0 l1 l0 unit : Byte) {pdu : List Byte} (h : 1 ≤ pdu.length) :
    mbapUnframe ([t1, t0, p1, p0, l1, l0, unit] ++ pdu) =
      if u16be p1 p0 ≠ 0 then .error (.formatError .protocol)
      else if (u16be l1 l0).toNat ≠ pdu.length + 7 - 6 then .error (.formatError .length)
      else .ok (u16be t1 t0, unit, pdu) := by
  cases pdu with
  | nil => simp at h
  | cons p pdu => rfl

/-- Settles O15: the presence test, then the length test. -/
theorem mBAP_FRAME_Result : Obligations.MBAP_FRAME_Result := by
  refine fun tid unit pdu s => ⟨fun hm h h' => ⟨?_, by simp; omega⟩, fun hm h => ?_, fun hm => if_pos hm⟩
  · rw [exec_mbapFrame tid unit hm h h']
    simp [mbapFrame]
  · exact (if_neg (by simp [hm])).trans (if_neg (pduFits_of_bad_length h))

/-- Settles O16: the tests in the order of `mbapUnframe_parts`. -/
theorem mBAP_UNFRAME_Result : Obligations.MBAP_UNFRAME_Result := by
  refine fun s hm => ⟨fun _ h => exec_mbapUnframe_of_error hm (mbapUnframe_of_short h),
    fun t1 t0 p1 p0 l1 l0 unit pdu h => ?_⟩
  have hp := mbapUnframe_parts t1 t0 p1 p0 l1 l0 unit h
  refine ⟨fun hproto => exec_mbapUnframe_of_error hm (hp.trans (if_pos hproto)), fun hproto hlen => ?_,
    fun hproto hlen => ?_⟩
  · rw [if_neg (not_not.2 hproto), if_pos hlen] at hp
    exact exec_mbapUnframe_of_error hm hp
  · rw [if_neg (not_not.2 hproto), if_neg (not_not.2 hlen)] at hp
    exact exec_mbapUnframe_of_ok hm hp

/-! ### The exception check -/

theorem exec_rspCheckExc_of_ok {fc : Byte} {rest bytes : List Byte} (s : State)
    (h : checkException (fc :: rest) = .ok bytes) :
    exec (.rspCheckExc (fc :: rest)) s = .next { s with rsp := some (.ok (.bytes bytes)) } := by
  rw [exec, execRspCheckExc, if_neg (by simp), h]; rfl

theorem exec_rspCheckExc_of_error {fc : Byte} {rest : List Byte} {e : Error} (s : State)
    (h : checkException (fc :: rest) = .error e) :
    exec (.rspCheckExc (fc :: rest)) s = .next { s with rsp := some (.error e) } := by
  rw [exec, execRspCheckExc, if_neg (by simp), h]; rfl

theorem checkException_of_clear {fc : Byte} (h : exceptionBit fc = false) (rest : List Byte) :
    checkException (fc :: rest) = .ok (fc :: rest) := if_neg (by simp [h])

theorem checkException_of_one {fc : Byte} (h : exceptionBit fc = true) :
    checkException [fc] = .error (.formatError .length) := if_pos h

theorem checkException_of_code {fc : Byte} (h : exceptionBit fc = true) (code : Byte) (rest : List Byte) :
    checkException (fc :: code :: rest) = .error (.slaveException (fc &&& 0x7F) code) := if_pos h

/-- Settles O11: by bit 7, and by whether a second byte stands behind it; the response decoder reports the same. -/
theorem rSP_CHECK_EXC_Result : Obligations.RSP_CHECK_EXC_Result := by
  refine fun fc rest s => ⟨fun h => exec_rspCheckExc_of_ok s (checkException_of_clear h rest), ?_, ?_, fun e h => ?_⟩
  · rintro h rfl
    exact exec_rspCheckExc_of_error s (checkException_of_one h)
  · rintro code more h rfl
    exact exec_rspCheckExc_of_error s (checkException_of_code h code more)
  · cases rest with
    | nil =>
      rw [exec_rspCheckExc_of_error s (checkException_of_one h),
        exec_pduDecRsp_of_error s (decodeResponse_of_short_exception h e)]
    | cons code more =>
      rw [exec_rspCheckExc_of_error s (checkException_of_code h code more),
        exec_pduDecRsp_of_error s (decodeResponse_of_exception h code more e)]

/-! ### What a framer sends -/

/-- A byte is its two digits. -/
theorem joinDigits_div_mod (b : Byte) :
    BitVec.ofNat 8 (b.toNat / 16) <<< 4 ||| BitVec.ofNat 8 (b.toNat % 16) = b := by
  have hb := b.isLt
  have hh : (BitVec.ofNat 8 (b.toNat / 16)).toNat = b.toNat / 16 := ofNat8_toNat (by omega)
  have hl : (BitVec.ofNat 8 (b.toNat % 16)).toNat = b.toNat % 16 := ofNat8_toNat (by omega)
  apply BitVec.eq_of_toNat_eq
  rw [joinDigits_toNat (by omega) (by omega), hh, hl]
  omega

theorem hexVal_hexChar (lower : Bool) {n : Nat} (h : n ≤ 15) :
    hexVal lower (hexChar (BitVec.ofNat 8 n)) = some (BitVec.ofNat 8 n) :=
  hexVal_eq_some.2 ⟨by rw [ofNat8_toNat] <;> omega, .inl rfl⟩

/-- `HEX.DEC` reads back what `HEX.ENC` writes (R220, R221). -/
@[simp] theorem hexDecode_hexEncode (lower : Bool) (bs : List Byte) : hexDecode lower (hexEncode bs) = some bs := by
  induction bs with
  | nil => rfl
  | cons b bs ih =>
    have hb := b.isLt
    rw [hexEncode_cons, hexDecode_cons_cons, hexVal_hexChar lower (by omega), hexVal_hexChar lower (by omega), ih]
    simp [joinDigits_div_mod]

theorem hexEncode_injective : Function.Injective hexEncode := fun a b h =>
  Option.some.inj (by rw [← hexDecode_hexEncode false a, h, hexDecode_hexEncode])

theorem rtuUnframe_rtuFrame {c : Cfg} {pdu : List Byte} (unit : Byte) (h : 1 ≤ pdu.length)
    (h' : pdu.length ≤ c.maxPdu) : rtuUnframe c (rtuFrame unit pdu) = .ok (unit, pdu) := by
  refine (rtuUnframe_parts c unit _ _ h).trans ?_
  rw [if_neg (Nat.not_lt.2 h'), if_pos (u16be_hi_lo _).symm]

theorem ascUnframe_ascFrame {c : Cfg} {pdu : List Byte} (unit : Byte) (h : 1 ≤ pdu.length)
    (h' : pdu.length ≤ c.maxPdu) : ascUnframe c (ascFrame unit pdu) = .ok (unit, pdu) := by
  refine (ascUnframe_hexParts h (hexDecode_hexEncode _ _)).trans ?_
  rw [if_neg (Nat.not_lt.2 h'), if_pos rfl]

theorem mbapUnframe_mbapFrame {pdu : List Byte} (tid : Word) (unit : Byte) (h : 1 ≤ pdu.length)
    (h' : pdu.length ≤ 65534) : mbapUnframe (mbapFrame tid unit pdu) = .ok (tid, unit, pdu) := by
  refine (mbapUnframe_parts _ _ _ _ _ _ _ h).trans ?_
  rw [if_neg (by decide), u16be_hi_lo, u16be_hi_lo, ofNat16_toNat (by omega)]
  exact if_neg (by omega)

/-- Settles O17: each frame is a wire written as its parts, and its own error check passes. -/
theorem frameRoundTrip : Obligations.FrameRoundTrip :=
  fun unit _ _ h h' =>
    ⟨⟨_, exec_ascFrame unit h h', exec_ascUnframe_of_ok (ascUnframe_ascFrame unit h h')⟩,
      ⟨_, exec_rtuFrame unit h h', exec_rtuUnframe_of_ok (rtuUnframe_rtuFrame unit h h')⟩,
      fun tid hm hlen => ⟨_, exec_mbapFrame tid unit hm h h',
        exec_mbapUnframe_of_ok hm (mbapUnframe_mbapFrame tid unit h hlen)⟩⟩

/-! ### One byte changed -/

theorem crc16_rtuFrame (unit : Byte) (pdu : List Byte) : crc16 (rtuFrame unit pdu) = 0 := crc16_append_le16 _

@[simp] theorem rtuFrame_length (unit : Byte) (pdu : List Byte) : (rtuFrame unit pdu).length = pdu.length + 3 := by
  simp [rtuFrame]

/-- A wire of a length that is taken fails the CRC test where its own CRC is not zero (R212, R216). -/
theorem rtuUnframe_of_residue {c : Cfg} {wire : List Byte} (h : 4 ≤ wire.length) (h' : wire.length ≤ c.maxPdu + 3)
    (hres : crc16 wire ≠ 0) : rtuUnframe c wire = .error (.ioError .checksum) := by
  obtain ⟨unit, pdu, lo, hi, rfl, hlen⟩ := exists_eq_cons_append_pair (show 3 ≤ wire.length by omega)
  rw [rtuUnframe_parts c unit lo hi (by omega), if_neg (by omega), if_neg (mt crc16_append_two_eq_zero.2 hres)]

/-- One byte changed changes the CRC of the whole frame. -/
theorem crc16_set_ne_zero {m : List Byte} {k : Nat} {b : Byte} (hm : crc16 m = 0) (hne : m.set k b ≠ m) :
    crc16 (m.set k b) ≠ 0 := fun h =>
  hne (set_eq_self_of_foldl_set_eq crcByte_injective_register crcByte_injective_byte (h.trans hm.symm))

/-- One byte changed changes the sum. -/
theorem byteSum_set_ne_zero {m : List Byte} {k : Nat} {b : Byte} (hm : byteSum m = 0) (hne : m.set k b ≠ m) :
    byteSum (m.set k b) ≠ 0 := fun h =>
  hne (set_eq_self_of_foldl_set_eq add_left_injective add_right_injective (h.trans hm.symm))

/-- Where lowercase is not accepted a byte sequence has one spelling. -/
theorem hexEncode_of_hexDecode {chars bytes : List Byte} (h : hexDecode false chars = some bytes) :
    hexEncode bytes = chars := by
  induction chars using List.twoStepInduction generalizing bytes with
  | nil => cases h; rfl
  | singleton c => cases h
  | cons_cons hi lo rest ih =>
    rw [hexDecode_cons_cons] at h
    simp only [Option.bind_eq_some_iff, Option.map_eq_some_iff] at h
    obtain ⟨d, hd, e, he, bs, hbs, rfl⟩ := h
    obtain ⟨hd15, rfl | ⟨h0, -⟩⟩ := hexVal_eq_some.1 hd
    · obtain ⟨he15, rfl | ⟨h0, -⟩⟩ := hexVal_eq_some.1 he
      · have hdiv : (16 * d.toNat + e.toNat) / 16 = d.toNat := by omega
        have hmod : (16 * d.toNat + e.toNat) % 16 = e.toNat := by omega
        rw [hexEncode_cons, ih hbs, joinDigits_toNat hd15 he15, hdiv, hmod, BitVec.ofNat_toNat, BitVec.ofNat_toNat,
          BitVec.setWidth_eq, BitVec.setWidth_eq]
      · cases h0
    · cases h0

/-- A character changed into another digit changes one byte of what is spelled. -/
theorem eq_set_of_hexEncode_eq_set {bs bs' : List Byte} {j : Nat} {x : Byte}
    (h : hexEncode bs' = (hexEncode bs).set j x) : ∃ i y, bs' = bs.set i y := by
  induction bs generalizing bs' j with
  | nil => exact ⟨0, 0, hexEncode_injective h⟩
  | cons b bs ih =>
    cases bs' with
    | nil => simpa using congrArg List.length h
    | cons b' bs' =>
      rw [hexEncode_cons, hexEncode_cons] at h
      match j with
      | 0 | 1 =>
        simp only [List.set_cons_succ, List.set_cons_zero, List.cons.injEq] at h
        obtain ⟨-, -, hrest⟩ := h
        exact ⟨0, b', by rw [hexEncode_injective hrest, List.set_cons_zero]⟩
      | j + 2 =>
        simp only [List.set_cons_succ, List.cons.injEq] at h
        obtain ⟨hhi, hlo, hrest⟩ := h
        have hb : [b'] = [b] := hexEncode_injective (by rw [hexEncode_cons, hexEncode_cons, hhi, hlo])
        obtain ⟨i, y, rfl⟩ := ih hrest
        exact ⟨i + 1, y, by rw [List.set_cons_succ, List.head_eq_of_cons_eq hb]⟩

/-- Where one byte of a delimited sequence changes, at most one changes between the delimiters. -/
theorem eq_set_of_delimited_eq_set {α : Type} {a b : α} {l l' e : List α} {k : Nat}
    (h : a :: l' ++ e = (a :: l ++ e).set k b) : ∃ j x, l' = l.set j x := by
  have hlen : l'.length = l.length := by simpa using congrArg List.length h
  cases k with
  | zero =>
    rw [List.cons_append, List.cons_append, List.set_cons_zero] at h
    have hl : l' = l := List.append_cancel_right (List.tail_eq_of_cons_eq h)
    exact ⟨l.length, a, hl.trans (List.set_eq_of_length_le le_rfl).symm⟩
  | succ j =>
    rw [List.cons_append, List.cons_append, List.set_cons_succ, List.set_append] at h
    split_ifs at h with hj
    · exact ⟨j, b, List.append_inj_left (List.tail_eq_of_cons_eq h) (by simpa using hlen)⟩
    · have hl : l' = l := List.append_inj_left (List.tail_eq_of_cons_eq h) hlen
      exact ⟨l.length, a, hl.trans (List.set_eq_of_length_le le_rfl).symm⟩

/-- R224: every failure is an `IoError`, and what is taken spells bytes whose sum is zero. -/
theorem ascUnframe_cases (c : Cfg) (wire : List Byte) :
    (∃ r, ascUnframe c wire = .error (.ioError r)) ∨
    ∃ chars bytes, wire = 0x3A :: chars ++ [0x0D, 0x0A] ∧ hexDecode c.hexAcceptLower chars = some bytes ∧
      byteSum bytes = 0 := by
  by_cases h : wire.length < 9
  · exact .inl ⟨_, ascUnframe_of_short c h⟩
  obtain ⟨a, chars, x, y, rfl, hlen⟩ := exists_eq_cons_append_pair (show 3 ≤ wire.length by omega)
  rw [ascUnframe_parts c a x y (by omega)]
  split_ifs with hends
  · obtain ⟨rfl, rfl, rfl⟩ := hends
    cases hd : hexDecode c.hexAcceptLower chars with
    | none => exact .inl ⟨_, rfl⟩
    | some bytes =>
      have hbytes := (hexDecode_eq_some hd).1
      obtain ⟨unit, pdu, p, x, rfl, -⟩ := exists_eq_cons_append_pair (show 3 ≤ bytes.length by omega)
      have happ : unit :: pdu ++ [p, x] = unit :: (pdu ++ [p]) ++ [x] := by simp
      rw [Option.elim_some, happ, ascBytes_parts]
      split_ifs with hmax hlrc
      · exact .inl ⟨_, rfl⟩
      · exact .inr ⟨chars, _, rfl, hd.trans (congrArg some happ), byteSum_append_eq_zero.2 hlrc⟩
      · exact .inl ⟨_, rfl⟩
  · exact .inl ⟨_, rfl⟩

/-- R226 for ASCII: a changed frame that is taken would spell the same bytes but for one, with the sum zero again. -/
theorem ascUnframe_set {c : Cfg} {unit : Byte} {pdu : List Byte} {k : Nat} {b : Byte}
    (hc : c.hexAcceptLower = false) (hne : (ascFrame unit pdu).set k b ≠ ascFrame unit pdu) :
    ∃ r, ascUnframe c ((ascFrame unit pdu).set k b) = .error (.ioError r) := by
  refine (ascUnframe_cases c _).resolve_right ?_
  rintro ⟨chars, bytes, hw, hd, hsum⟩
  rw [hc] at hd
  obtain rfl := hexEncode_of_hexDecode hd
  obtain ⟨j, x, hchars⟩ := eq_set_of_delimited_eq_set hw.symm
  obtain ⟨i, y, rfl⟩ := eq_set_of_hexEncode_eq_set hchars
  refine byteSum_set_ne_zero (byteSum_append_eq_zero.2 rfl) (fun heq => hne ?_) hsum
  rw [hw, heq]
  rfl

/-- Settles O18: RTU by the residue of the changed frame, ASCII by `ascUnframe_set`. -/
theorem oneCorruptedByteIsDetected : Obligations.OneCorruptedByteIsDetected := by
  refine fun unit pdu s k b h h' => ⟨fun hk hb => ?_, fun hc hk hb => ?_⟩
  · have hne := mt (getElem?_of_set_eq_self hk) hb
    refine exec_rtuUnframe_of_error (rtuUnframe_of_residue ?_ ?_ (crc16_set_ne_zero (crc16_rtuFrame unit pdu) hne))
    · simpa using h
    · simpa using h'
  · obtain ⟨r, hr⟩ := ascUnframe_set hc (mt (getElem?_of_set_eq_self hk) hb)
    exact ⟨r, exec_ascUnframe_of_error hr⟩

end Sys2Proof.Machine

/-! The family 44_slave_exec.md. What a read row and a write row answer is one equation for each outcome, and so is what
SLAVE.STEP does with a candidate frame. That SLAVE.EXEC and SLAVE.STEP come to an end is proved on the two shapes of a
request row (`SlaveRow`). -/

namespace Sys2Proof.Machine

/-! ### Answers on a store that exists -/

theorem answerSlave_of_ok {f : State → SlaveAnswer} {s s' : State} {rsp : Option (List Byte)}
    (hc : s.created = true) (h : f s = .ok (s', rsp)) :
    answerSlave f s = .next { s' with rsp := some (.ok (.reply rsp)) } :=
  answerSlave_eq_next.2 ⟨hc, s', rsp, h, rfl⟩

/-! ### The quantity test -/

theorem quantityAllowed_eq_true {c : Cfg} {f : FuncCode} {q : Nat} {r : QtyRange} (hf : qtyRange c f = some r) :
    quantityAllowed c f q = true ↔ r.min ≤ q ∧ q ≤ r.max := by
  simp [quantityAllowed, hf, QtyRange.allows]

theorem quantityAllowed_eq_false {c : Cfg} {f : FuncCode} {q : Nat} {r : QtyRange} (hf : qtyRange c f = some r) :
    quantityAllowed c f q = false ↔ q < r.min ∨ r.max < q := by
  rw [← Bool.not_eq_true, quantityAllowed_eq_true hf]
  omega

/-! ### What a read row answers -/

/-- The response to a read of bits, where their byte count fits one byte (R242, R243). -/
theorem readResponse_bits {f : FuncCode} {l : List Bool} (hf : f = .readCoils ∨ f = .readDiscreteInputs)
    (h : l.length ≤ 2040) : ∃ m, readResponse f (.bits l) = some m ∧ m.wf = true ∧
      encodeResponse m = [f.toByte, BitVec.ofNat 8 (ceil8 l.length)] ++ packBits l := by
  rcases hf with rfl | rfl
  · exact ⟨.readCoils l, rfl, decide_eq_true h, rfl⟩
  · exact ⟨.readDiscreteInputs l, rfl, decide_eq_true h, rfl⟩

/-- The response to a read of registers, where their byte count fits one byte (R244, R245). -/
theorem readResponse_registers {f : FuncCode} {l : List Word}
    (hf : f = .readHoldingRegisters ∨ f = .readInputRegisters) (h : l.length ≤ 127) :
    ∃ m, readResponse f (.regs l) = some m ∧ m.wf = true ∧
      encodeResponse m = [f.toByte, BitVec.ofNat 8 (2 * l.length)] ++ encodeRegs l := by
  rcases hf with rfl | rfl
  · exact ⟨.readHoldingRegisters l, rfl, decide_eq_true h, rfl⟩
  · exact ⟨.readInputRegisters l, rfl, decide_eq_true h, rfl⟩

section
variable {f : FuncCode} {b : Bank} {start q : Word} {s : State}

theorem slaveRead_badQuantity (hq : quantityAllowed s.cfg f q.toNat = false) :
    slaveRead f b start q s = .ok (s, exceptionReply f.toByte s.cfg.excIllegalDataValue) := if_pos hq

theorem slaveRead_outOfRange (hr : s.StoreReady) (hq : quantityAllowed s.cfg f q.toNat = true)
    (hb : s.mem.len b < start.toNat + 1 + q.toNat) :
    slaveRead f b start q s = .ok (s, exceptionReply f.toByte s.cfg.excIllegalDataAddress) := by
  rw [slaveRead, if_neg (by simp [hq]), storeGuard_bind_ready _ hr, dsRead_outOfRange hb]

theorem slaveRead_inRange {m : Response} (hr : s.StoreReady) (hq : quantityAllowed s.cfg f q.toNat = true)
    (hb : start.toNat + 1 + q.toNat ≤ s.mem.len b)
    (hm : readResponse f (s.mem.read b (start.toNat + 1) q.toNat) = some m) (hw : m.wf = true) :
    slaveRead f b start q s = .ok (readState b start.toNat q.toNat s, some (encodeResponse m)) := by
  rw [slaveRead, if_neg (by simp [hq]), storeGuard_bind_ready _ hr, dsRead_inRange hb]
  simp only [hm, hw, if_true]

variable {r : QtyRange}

theorem answerSlave_read_badQuantity (hr : s.StoreReady) (hf : qtyRange s.cfg f = some r)
    (h : q.toNat < r.min ∨ r.max < q.toNat) : answerSlave (slaveRead f b start q) s
      = .next { s with rsp := some (.ok (.reply (some [f.toByte ||| 0x80, s.cfg.excIllegalDataValue]))) } :=
  answerSlave_of_ok hr.1 (slaveRead_badQuantity ((quantityAllowed_eq_false hf).2 h))

theorem answerSlave_read_outOfRange (hr : s.StoreReady) (hf : qtyRange s.cfg f = some r) (hmin : r.min ≤ q.toNat)
    (hmax : q.toNat ≤ r.max) (hb : s.mem.len b < start.toNat + 1 + q.toNat) : answerSlave (slaveRead f b start q) s
      = .next { s with rsp := some (.ok (.reply (some [f.toByte ||| 0x80, s.cfg.excIllegalDataAddress]))) } :=
  answerSlave_of_ok hr.1 (slaveRead_outOfRange hr ((quantityAllowed_eq_true hf).2 ⟨hmin, hmax⟩) hb)

theorem answerSlave_read_inRange {m : Response} (hr : s.StoreReady) (hf : qtyRange s.cfg f = some r)
    (hmin : r.min ≤ q.toNat) (hmax : q.toNat ≤ r.max) (hb : start.toNat + 1 + q.toNat ≤ s.mem.len b)
    (hm : readResponse f (s.mem.read b (start.toNat + 1) q.toNat) = some m) (hw : m.wf = true) :
    answerSlave (slaveRead f b start q) s = .next { s with
      evtR := s.evtR ++ [⟨kindOf b, start.toNat, s.mem.read b (start.toNat + 1) q.toNat⟩]
      rsp := some (.ok (.reply (some (encodeResponse m)))) } := by
  rw [answerSlave_of_ok hr.1 (slaveRead_inRange hr ((quantityAllowed_eq_true hf).2 ⟨hmin, hmax⟩) hb hm hw),
    readState_eq hr.2]

theorem answerSlave_readBits_inRange {l : List Bool} (hr : s.StoreReady) (hf : qtyRange s.cfg f = some r)
    (hmin : r.min ≤ q.toNat) (hmax : q.toNat ≤ r.max) (hb : start.toNat + 1 + q.toNat ≤ s.mem.len b)
    (hbits : f = .readCoils ∨ f = .readDiscreteInputs) (hl : s.mem.read b (start.toNat + 1) q.toNat = .bits l)
    (hq : q.toNat ≤ 2040) : answerSlave (slaveRead f b start q) s = .next { s with
      evtR := s.evtR ++ [⟨kindOf b, start.toNat, .bits l⟩]
      rsp := some (.ok (.reply (some ([f.toByte, BitVec.ofNat 8 (ceil8 q.toNat)] ++ packBits l)))) } := by
  have hlen := Memory.read_length hb
  rw [hl] at hlen
  obtain ⟨m, hm, hw, henc⟩ := readResponse_bits hbits (hlen.trans_le hq)
  rw [answerSlave_read_inRange hr hf hmin hmax hb (hl ▸ hm) hw, hl, henc, ← hlen]
  rfl

theorem answerSlave_readRegisters_inRange {l : List Word} (hr : s.StoreReady) (hf : qtyRange s.cfg f = some r)
    (hmin : r.min ≤ q.toNat) (hmax : q.toNat ≤ r.max) (hb : start.toNat + 1 + q.toNat ≤ s.mem.len b)
    (hregs : f = .readHoldingRegisters ∨ f = .readInputRegisters)
    (hl : s.mem.read b (start.toNat + 1) q.toNat = .regs l) (hq : q.toNat ≤ 127) :
    answerSlave (slaveRead f b start q) s = .next { s with
      evtR := s.evtR ++ [⟨kindOf b, start.toNat, .regs l⟩]
      rsp := some (.ok (.reply (some ([f.toByte, BitVec.ofNat 8 (2 * q.toNat)] ++ l.flatMap be16)))) } := by
  have hlen := Memory.read_length hb
  rw [hl] at hlen
  obtain ⟨m, hm, hw, henc⟩ := readResponse_registers hregs (hlen.trans_le hq)
  rw [answerSlave_read_inRange hr hf hmin hmax hb (hl ▸ hm) hw, hl, henc, ← hlen]
  rfl

end

/-- Settles O37: the three outcomes of a read row for each of the two bit banks. -/
theorem slaveReadsBits : Obligations.SlaveReadsBits := by
  intro start q s hr
  exact ⟨answerSlave_read_badQuantity (f := .readCoils) hr rfl,
    answerSlave_read_outOfRange (f := .readCoils) (b := .cd) hr rfl,
    fun hmin hmax hq hb => answerSlave_readBits_inRange (b := .cd) hr rfl hmin hmax hb (.inl rfl) rfl hq,
    answerSlave_read_badQuantity (f := .readDiscreteInputs) hr rfl,
    answerSlave_read_outOfRange (f := .readDiscreteInputs) (b := .id) hr rfl,
    fun hmin hmax hq hb => answerSlave_readBits_inRange (b := .id) hr rfl hmin hmax hb (.inr rfl) rfl hq⟩

/-- Settles O38: the three outcomes of a read row for each of the two register banks. -/
theorem slaveReadsRegisters : Obligations.SlaveReadsRegisters := by
  intro start q s hr
  exact ⟨answerSlave_read_badQuantity (f := .readHoldingRegisters) hr rfl,
    answerSlave_read_outOfRange (f := .readHoldingRegisters) (b := .hr) hr rfl,
    fun hmin hmax hq hb => answerSlave_readRegisters_inRange (b := .hr) hr rfl hmin hmax hb (.inl rfl) rfl hq,
    answerSlave_read_badQuantity (f := .readInputRegisters) hr rfl,
    answerSlave_read_outOfRange (f := .readInputRegisters) (b := .ir) hr rfl,
    fun hmin hmax hq hb => answerSlave_readRegisters_inRange (b := .ir) hr rfl hmin hmax hb (.inr rfl) rfl hq⟩

/-! ### What a write row answers -/

section
variable {f : FuncCode} {b : Bank} {start : Word} {vs : Values} {m : Response} {s : State}

theorem slaveWrite_badQuantity (hq : quantityAllowed s.cfg f vs.length = false) :
    slaveWrite f b start vs m s = .ok (s, exceptionReply f.toByte s.cfg.excIllegalDataValue) := if_pos hq

theorem slaveWrite_outOfRange (hr : s.StoreReady) (hq : quantityAllowed s.cfg f vs.length = true)
    (hb : s.mem.len b < start.toNat + 1 + vs.length) :
    slaveWrite f b start vs m s = .ok (s, exceptionReply f.toByte s.cfg.excIllegalDataAddress) := by
  rw [slaveWrite, if_neg (by simp [hq]), storeGuard_bind_ready _ hr, dsWrite_outOfRange hb]

theorem slaveWrite_inRange (hr : s.StoreReady) (hq : quantityAllowed s.cfg f vs.length = true)
    (hb : start.toNat + 1 + vs.length ≤ s.mem.len b) :
    slaveWrite f b start vs m s = .ok (writeState b start.toNat vs s, some (encodeResponse m)) := by
  rw [slaveWrite, if_neg (by simp [hq]), storeGuard_bind_ready _ hr, dsWrite_inRange hb]

theorem answerSlave_write_badQuantity (hr : s.StoreReady) (hq : quantityAllowed s.cfg f vs.length = false) :
    answerSlave (slaveWrite f b start vs m) s
      = .next { s with rsp := some (.ok (.reply (some [f.toByte ||| 0x80, s.cfg.excIllegalDataValue]))) } :=
  answerSlave_of_ok hr.1 (slaveWrite_badQuantity hq)

theorem answerSlave_write_outOfRange (hr : s.StoreReady) (hq : quantityAllowed s.cfg f vs.length = true)
    (hb : s.mem.len b < start.toNat + 1 + vs.length) : answerSlave (slaveWrite f b start vs m) s
      = .next { s with rsp := some (.ok (.reply (some [f.toByte ||| 0x80, s.cfg.excIllegalDataAddress]))) } :=
  answerSlave_of_ok hr.1 (slaveWrite_outOfRange hr hq hb)

theorem answerSlave_write_inRange (hr : s.StoreReady) (hq : quantityAllowed s.cfg f vs.length = true)
    (hb : start.toNat + 1 + vs.length ≤ s.mem.len b) : answerSlave (slaveWrite f b start vs m) s = .next { s with
      mem := s.mem.write b (start.toNat + 1) vs
      evtW := s.evtW ++ [⟨kindOf b, start.toNat, vs⟩]
      rsp := some (.ok (.reply (some (encodeResponse m)))) } := by
  rw [answerSlave_of_ok hr.1 (slaveWrite_inRange hr hq hb), writeState_eq hr.2]

end

/-- A slice of one element is written by setting it (R246, R247). -/
theorem overwrite_singleton {α : Type} {l : List α} {i : Nat} (x : α) (h : i < l.length) :
    overwrite l i [x] = l.set i x := by
  rw [List.set_eq_take_append_cons_drop, if_pos h, overwrite, List.append_assoc]
  rfl

theorem slaveExec_of_bad_coil_value {a v : Word} (hon : v ≠ 0xFF00) (hoff : v ≠ 0x0000) (s : State) :
    slaveExec ([0x05] ++ be16 a ++ be16 v) s = .ok (s, exceptionReply 0x05 s.cfg.excIllegalDataValue) := by
  rw [← u16be_hi_lo v] at hon hoff
  have hd : decodeRequest ([0x05] ++ be16 a ++ be16 v) = .error (.coilValue (u16be (hiByte v) (loByte v))) :=
    congrArg (Except.map _) (coilFields_of_bad_value hon hoff)
  rw [slaveExec_of_error hd]
  rfl

/-- Settles O39: the two outcomes of a write row of one element, and the bad coil value by what the decoder reports. -/
theorem slaveWritesSingle : Obligations.SlaveWritesSingle := by
  intro a v b s hr
  refine ⟨answerSlave_write_outOfRange (f := .writeSingleCoil) (b := .cd) (vs := .bits [b]) hr rfl, fun hb => ?coil,
    fun hon hoff => answerSlave_of_ok hr.1 (slaveExec_of_bad_coil_value hon hoff s),
    answerSlave_write_outOfRange (f := .writeSingleRegister) (b := .hr) (vs := .regs [v]) hr rfl, fun hb => ?register⟩
  case coil =>
    have h := answerSlave_write_inRange (f := .writeSingleCoil) (b := .cd) (start := a) (vs := .bits [b])
      (m := .writeSingleCoil a b) hr rfl hb
    rw [Memory.write, overwrite_singleton b (by omega)] at h
    cases b <;> exact h
  case register =>
    have h := answerSlave_write_inRange (f := .writeSingleRegister) (b := .hr) (start := a) (vs := .regs [v])
      (m := .writeSingleRegister a v) hr rfl hb
    rwa [Memory.write, overwrite_singleton v (by omega)] at h

theorem slaveWriteMultipleCoils_of_wf {bits : List Bool} (start : Word) (h : bits.length ≤ 2040) :
    slaveWriteMultipleCoils start bits = slaveWrite .writeMultipleCoils .cd start (.bits bits)
      (.writeMultipleCoils start (BitVec.ofNat 16 bits.length)) :=
  funext fun _ => if_neg (Nat.not_lt.2 h)

theorem slaveWriteMultipleRegisters_of_wf {regs : List Word} (start : Word) (h : regs.length ≤ 127) :
    slaveWriteMultipleRegisters start regs = slaveWrite .writeMultipleRegisters .hr start (.regs regs)
      (.writeMultipleRegisters start (BitVec.ofNat 16 regs.length)) :=
  funext fun _ => if_neg (Nat.not_lt.2 h)

/-- Settles O40: the three outcomes of a write row for each of the two banks the wire writes. -/
theorem slaveWritesMultiple : Obligations.SlaveWritesMultiple := by
  intro start bits regs s hr hbits hregs
  simp only [exec, execReqWriteMultipleCoils, execReqWriteMultipleRegisters,
    slaveWriteMultipleCoils_of_wf start hbits, slaveWriteMultipleRegisters_of_wf start hregs]
  refine ⟨fun h => answerSlave_write_badQuantity hr ((quantityAllowed_eq_false rfl).2 h),
    fun hmin hmax hb => answerSlave_write_outOfRange hr ?_ hb, fun hmin hmax hb => answerSlave_write_inRange hr ?_ hb,
    fun h => answerSlave_write_badQuantity hr ((quantityAllowed_eq_false rfl).2 h),
    fun hmin hmax hb => answerSlave_write_outOfRange hr ?_ hb, fun hmin hmax hb => answerSlave_write_inRange hr ?_ hb⟩
  all_goals exact (quantityAllowed_eq_true rfl).2 ⟨hmin, hmax⟩

/-! ### What a rejected PDU is answered with -/

theorem slaveMalformed_of_drop {s : State} (fc : Byte) (h : s.cfg.malformedPolicy = .drop) :
    slaveMalformed fc s = .ok (s, none) := by
  rw [slaveMalformed, h]

theorem slaveMalformed_of_exception {s : State} {code : Byte} (fc : Byte)
    (h : s.cfg.malformedPolicy = .exception code) : slaveMalformed fc s = .ok (s, exceptionReply fc code) := by
  rw [slaveMalformed, h]

theorem slaveExec_of_unsupported {fc : Byte}
    (h : fc ∉ ([0x01, 0x02, 0x03, 0x04, 0x05, 0x06, 0x0F, 0x10] : List Byte)) (rest : List Byte) :
    slaveExec (fc :: rest) = slaveUnsupported fc :=
  slaveExec_of_error (decodeRequest_of_unsupported h rest)

theorem slaveExec_of_malformed {fc : Byte} {rest : List Byte}
    (h : decodeRequest (fc :: rest) = .error .length ∨ decodeRequest (fc :: rest) = .error .byteCount) :
    slaveExec (fc :: rest) = slaveMalformed fc :=
  h.elim slaveExec_of_error slaveExec_of_error

/-- The exception bit set in a code that has it is no change (R252). -/
theorem or_exceptionBit_of_le {fc : Byte} (h : 128 ≤ fc.toNat) : fc ||| 0x80 = fc := by
  revert fc; decide +kernel

/-- Settles O41: the unsupported code by `decodeRequest_of_unsupported`, the malformed PDU by its policy. -/
theorem slaveRejections : Obligations.SlaveRejections := by
  refine fun s hc => ⟨fun fc rest hfc => ⟨?exec, ?row, or_exceptionBit_of_le⟩,
    fun fc rest hd => ⟨fun hp => ?drop, fun code hp => ?exception⟩⟩
  case exec => exact answerSlave_of_ok hc (congrFun (slaveExec_of_unsupported hfc rest) s)
  case row =>
    have hu : unsupportedByte fc = true := unsupportedByte_of_decodeRequest (decodeRequest_of_unsupported hfc [])
    exact (exec_reqUnsupported s hu).trans (answerSlave_of_ok hc rfl)
  case drop =>
    exact answerSlave_of_ok hc ((congrFun (slaveExec_of_malformed hd) s).trans (slaveMalformed_of_drop fc hp))
  case exception =>
    exact answerSlave_of_ok hc ((congrFun (slaveExec_of_malformed hd) s).trans (slaveMalformed_of_exception fc hp))

end Sys2Proof.Machine

namespace Sys2Proof

/-! ### What the request decoder can report -/

theorem eq_error_of_map {ε α β : Type} {x : Except ε α} {g : α → β} {r : ε} (h : x.map g = .error r) :
    x = .error r := by
  cases x with
  | error r' => cases h; rfl
  | ok a => cases h

theorem twoWords_eq_error {rest : List Byte} {r : FormatReason} (h : twoWords rest = .error r) : r = .length := by
  unfold twoWords at h
  split at h <;> cases h
  rfl

theorem coilFields_eq_error {rest : List Byte} {r : FormatReason} (h : coilFields rest = .error r) :
    r = .length ∨ ∃ v, r = .coilValue v := by
  unfold coilFields at h
  split at h
  next hw => cases h; exact .inl (twoWords_eq_error hw)
  next =>
    split at h
    next => cases h
    next => cases h; exact .inr ⟨_, rfl⟩

theorem decodeWriteMultipleCoils_eq_error {rest : List Byte} {r : FormatReason}
    (h : decodeWriteMultipleCoils rest = .error r) : r = .length ∨ r = .byteCount := by
  unfold decodeWriteMultipleCoils at h
  split at h
  · split_ifs at h <;> cases h
    · exact .inr rfl
    · exact .inl rfl
  · cases h; exact .inl rfl

theorem decodeWriteMultipleRegisters_eq_error {rest : List Byte} {r : FormatReason}
    (h : decodeWriteMultipleRegisters rest = .error r) : r = .length ∨ r = .byteCount := by
  unfold decodeWriteMultipleRegisters at h
  split at h
  · split_ifs at h <;> cases h
    · exact .inr rfl
    · exact .inl rfl
  · cases h; exact .inl rfl

theorem decodeRequestBody_eq_error {f : FuncCode} {rest : List Byte} {r : FormatReason}
    (h : decodeRequestBody f rest = .error r) : (r = .length ∨ r = .byteCount) ∨ ∃ v, r = .coilValue v := by
  cases f with
  | readCoils => exact .inl (.inl (twoWords_eq_error (eq_error_of_map h)))
  | readDiscreteInputs => exact .inl (.inl (twoWords_eq_error (eq_error_of_map h)))
  | readHoldingRegisters => exact .inl (.inl (twoWords_eq_error (eq_error_of_map h)))
  | readInputRegisters => exact .inl (.inl (twoWords_eq_error (eq_error_of_map h)))
  | writeSingleCoil => exact (coilFields_eq_error (eq_error_of_map h)).imp_left .inl
  | writeSingleRegister => exact .inl (.inl (twoWords_eq_error (eq_error_of_map h)))
  | writeMultipleCoils => exact .inl (decodeWriteMultipleCoils_eq_error h)
  | writeMultipleRegisters => exact .inl (decodeWriteMultipleRegisters_eq_error h)

/-- What is reported of a PDU that is not empty: its layout, its coil value, or its function code (R152). -/
theorem decodeRequest_eq_error {fc : Byte} {rest : List Byte} {r : FormatReason}
    (h : decodeRequest (fc :: rest) = .error r) :
    (r = .length ∨ r = .byteCount) ∨ (∃ v, r = .coilValue v) ∨ r = .function fc := by
  rw [decodeRequest] at h
  split at h
  next => cases h; exact .inr (.inr rfl)
  next => exact (decodeRequestBody_eq_error h).imp_right .inl

theorem Request.wf_of_decodeRequest {pdu : List Byte} {m : Request} (h : decodeRequest pdu = .ok m) : m.wf = true :=
  (requestCodecRoundTrip.2 pdu m h).1

/-! ### A configuration whose answers fit -/

theorem ceil8_mono {q r : Nat} (h : q ≤ r) : ceil8 q ≤ ceil8 r := Nat.div_le_div_right (Nat.add_le_add_right h 7)

section
variable {c : Cfg} {f : FuncCode} {q : Nat}

theorem Cfg.five_le_maxPdu (h : c.answersFit = true) : 5 ≤ c.maxPdu := by
  simp only [Cfg.answersFit, Bool.and_eq_true, decide_eq_true_eq] at h
  omega

theorem Cfg.mbapPresent_of_answersFit (h : c.answersFit = true) : ¬ (c.framing = .mbap ∧ c.mbapPresent = false) := by
  rintro ⟨hm, hp⟩
  simp [Cfg.answersFit, Cfg.legal, hm, hp] at h

/-- The bits that may be read have a response that fits (R244). -/
theorem Cfg.bits_fit (h : c.answersFit = true) (hf : f = .readCoils ∨ f = .readDiscreteInputs)
    (hq : Machine.quantityAllowed c f q = true) : q ≤ 2040 ∧ 2 + ceil8 q ≤ c.maxPdu := by
  simp only [Cfg.answersFit, Cfg.legal, Bool.and_eq_true, decide_eq_true_eq] at h
  rcases hf with rfl | rfl
  all_goals
    obtain ⟨-, hle⟩ := (Machine.quantityAllowed_eq_true rfl).1 hq
    have := ceil8_mono hle
    omega

/-- The registers that may be read have a response that fits (R244). -/
theorem Cfg.registers_fit (h : c.answersFit = true) (hf : f = .readHoldingRegisters ∨ f = .readInputRegisters)
    (hq : Machine.quantityAllowed c f q = true) : q ≤ 127 ∧ 2 + 2 * q ≤ c.maxPdu := by
  simp only [Cfg.answersFit, Cfg.legal, Bool.and_eq_true, decide_eq_true_eq] at h
  rcases hf with rfl | rfl
  all_goals
    obtain ⟨-, hle⟩ := (Machine.quantityAllowed_eq_true rfl).1 hq
    omega

end

end Sys2Proof

namespace Sys2Proof.Machine

/-! ### The two shapes of a request row -/

/-- The data have a response to the function code, which can be encoded and framed. -/
abbrev ResponseFits (c : Cfg) (f : FuncCode) (vs : Values) : Prop :=
  ∃ m, readResponse f vs = some m ∧ m.wf = true ∧ pduFits c (encodeResponse m) = true

theorem readResponse_bits_fits {c : Cfg} {f : FuncCode} {l : List Bool} (hc : c.answersFit = true)
    (hf : f = .readCoils ∨ f = .readDiscreteInputs) (hq : quantityAllowed c f l.length = true) :
    ResponseFits c f (.bits l) := by
  obtain ⟨h2040, hmax⟩ := Cfg.bits_fit hc hf hq
  obtain ⟨m, hm, hw, henc⟩ := readResponse_bits hf h2040
  refine ⟨m, hm, hw, pduFits_eq_true.2 ?_⟩
  rw [henc, List.length_append, packBits_length, List.length_cons, List.length_singleton]
  omega

theorem readResponse_registers_fits {c : Cfg} {f : FuncCode} {l : List Word} (hc : c.answersFit = true)
    (hf : f = .readHoldingRegisters ∨ f = .readInputRegisters) (hq : quantityAllowed c f l.length = true) :
    ResponseFits c f (.regs l) := by
  obtain ⟨h127, hmax⟩ := Cfg.registers_fit hc hf hq
  obtain ⟨m, hm, hw, henc⟩ := readResponse_registers hf h127
  refine ⟨m, hm, hw, pduFits_eq_true.2 ?_⟩
  rw [henc, List.length_append, encodeRegs_length, List.length_cons, List.length_singleton]
  omega

/-- The function code reads the bank: data of its kind have a response wherever the quantity is allowed. -/
abbrev Reads (f : FuncCode) (b : Bank) : Prop :=
  ∀ (c : Cfg) (vs : Values), c.answersFit = true → vs.fits b = true → quantityAllowed c f vs.length = true →
    ResponseFits c f vs

theorem reads_coils : Reads .readCoils .cd
  | _, .bits _, hc, _, hq => readResponse_bits_fits hc (.inl rfl) hq

theorem reads_discreteInputs : Reads .readDiscreteInputs .id
  | _, .bits _, hc, _, hq => readResponse_bits_fits hc (.inr rfl) hq

theorem reads_holdingRegisters : Reads .readHoldingRegisters .hr
  | _, .regs _, hc, _, hq => readResponse_registers_fits hc (.inl rfl) hq

theorem reads_inputRegisters : Reads .readInputRegisters .ir
  | _, .regs _, hc, _, hq => readResponse_registers_fits hc (.inr rfl) hq

/-- What a well-formed request is at the slave: a read of its bank, or a write with a response of five bytes
(R242 to R249). -/
inductive SlaveRow : (State → SlaveAnswer) → Prop where
  | read (f : FuncCode) (b : Bank) (start q : Word) (reads : Reads f b) : SlaveRow (slaveRead f b start q)
  | write (f : FuncCode) (b : Bank) (start : Word) (vs : Values) (m : Response) (five : (encodeResponse m).length = 5) :
    SlaveRow (slaveWrite f b start vs m)

theorem slaveRequest_row {m : Request} (h : m.wf = true) : SlaveRow (slaveRequest m) := by
  cases m with
  | readCoils start q => exact .read _ _ start q reads_coils
  | readDiscreteInputs start q => exact .read _ _ start q reads_discreteInputs
  | readHoldingRegisters start q => exact .read _ _ start q reads_holdingRegisters
  | readInputRegisters start q => exact .read _ _ start q reads_inputRegisters
  | writeSingleCoil a v => exact .write .writeSingleCoil .cd a (.bits [v]) (.writeSingleCoil a v) rfl
  | writeSingleRegister a v => exact .write .writeSingleRegister .hr a (.regs [v]) (.writeSingleRegister a v) rfl
  | writeMultipleCoils start bits =>
    have hrow : slaveRequest (.writeMultipleCoils start bits) = slaveWriteMultipleCoils start bits := rfl
    rw [hrow, slaveWriteMultipleCoils_of_wf start (of_decide_eq_true h)]
    exact .write _ _ _ _ _ rfl
  | writeMultipleRegisters start regs =>
    have hrow : slaveRequest (.writeMultipleRegisters start regs) = slaveWriteMultipleRegisters start regs := rfl
    rw [hrow, slaveWriteMultipleRegisters_of_wf start (of_decide_eq_true h)]
    exact .write _ _ _ _ _ rfl

theorem slaveRead_ne_none {f : FuncCode} {b : Bank} {start q : Word} {s s' : State} {rsp : Option (List Byte)}
    (h : slaveRead f b start q s = .ok (s', rsp)) : rsp ≠ none := by
  rcases slaveRead_cases h with ⟨-, -, rfl⟩ | ⟨-, -, -, -, rfl⟩ | ⟨-, -, -, -, m, -, -, rfl⟩ <;> exact nofun

theorem slaveWrite_ne_none {f : FuncCode} {b : Bank} {start : Word} {vs : Values} {m : Response} {s s' : State}
    {rsp : Option (List Byte)} (h : slaveWrite f b start vs m s = .ok (s', rsp)) : rsp ≠ none := by
  rcases slaveWrite_cases h with ⟨-, -, rfl⟩ | ⟨-, -, -, -, rfl⟩ | ⟨-, -, -, -, rfl⟩ <;> exact nofun

/-- A request that decodes is never met with silence (R253). -/
theorem SlaveRow.ne_none {f : State → SlaveAnswer} (hf : SlaveRow f) {s s' : State} {rsp : Option (List Byte)}
    (h : f s = .ok (s', rsp)) : rsp ≠ none := by
  cases hf with
  | read => exact slaveRead_ne_none h
  | write => exact slaveWrite_ne_none h

/-- A bad coil value and an unsupported function code are answered with an exception, whatever the policy
(R246, R252). -/
theorem slaveExec_of_exception {fc : Byte} {rest : List Byte} {r : FormatReason}
    (hd : decodeRequest (fc :: rest) = .error r) (hr : (∃ v, r = .coilValue v) ∨ r = .function fc) (s : State) :
    ∃ code, slaveExec (fc :: rest) s = .ok (s, exceptionReply fc code) := by
  rw [slaveExec_of_error hd]
  rcases hr with ⟨v, rfl⟩ | rfl
  · exact ⟨s.cfg.excIllegalDataValue, rfl⟩
  · exact ⟨s.cfg.excIllegalFunction, rfl⟩

/-! ### Every request comes to an end -/

/-- The answer is a next state, and its PDU, if there is one, can be framed. -/
abbrev Fits (c : Cfg) (a : SlaveAnswer) : Prop :=
  ∃ s' rsp, a = .ok (s', rsp) ∧ ∀ p, rsp = some p → pduFits c p = true

theorem Fits.reply {c : Cfg} {a : SlaveAnswer} {s' : State} {p : List Byte} (h : a = .ok (s', some p))
    (hp : pduFits c p = true) : Fits c a :=
  ⟨s', some p, h, fun _ h => by cases h; exact hp⟩

theorem Fits.exception {c : Cfg} (h : c.answersFit = true) {a : SlaveAnswer} {s' : State} {fc code : Byte}
    (ha : a = .ok (s', exceptionReply fc code)) : Fits c a := by
  have hlen : (encodeException fc code).length = 2 := rfl
  have hmax := Cfg.five_le_maxPdu h
  exact .reply ha (pduFits_eq_true.2 (by omega))

section
variable {s : State} (hr : s.StoreReady) (hc : s.cfg.answersFit = true)
include hr hc

/-- A read comes to an end where the response to what it reads can be encoded and framed (R244). -/
theorem slaveRead_fits {f : FuncCode} {b : Bank} {start q : Word}
    (h : quantityAllowed s.cfg f q.toNat = true → start.toNat + 1 + q.toNat ≤ s.mem.len b →
      ResponseFits s.cfg f (s.mem.read b (start.toNat + 1) q.toNat)) : Fits s.cfg (slaveRead f b start q s) := by
  by_cases hq : quantityAllowed s.cfg f q.toNat = true
  · by_cases hb : start.toNat + 1 + q.toNat ≤ s.mem.len b
    · obtain ⟨m, hm, hw, hp⟩ := h hq hb
      exact .reply (slaveRead_inRange hr hq hb hm hw) hp
    · exact .exception hc (slaveRead_outOfRange hr hq (Nat.lt_of_not_le hb))
  · exact .exception hc (slaveRead_badQuantity (Bool.eq_false_of_not_eq_true hq))

theorem slaveWrite_fits {f : FuncCode} {b : Bank} {start : Word} {vs : Values} {m : Response}
    (hp : pduFits s.cfg (encodeResponse m) = true) : Fits s.cfg (slaveWrite f b start vs m s) := by
  by_cases hq : quantityAllowed s.cfg f vs.length = true
  · by_cases hb : start.toNat + 1 + vs.length ≤ s.mem.len b
    · exact .reply (slaveWrite_inRange hr hq hb) hp
    · exact .exception hc (slaveWrite_outOfRange hr hq (Nat.lt_of_not_le hb))
  · exact .exception hc (slaveWrite_badQuantity (Bool.eq_false_of_not_eq_true hq))

theorem SlaveRow.fits {f : State → SlaveAnswer} (hf : SlaveRow f) : Fits s.cfg (f s) := by
  cases hf with
  | read f b start q reads =>
    exact slaveRead_fits hr hc fun hq hb =>
      reads _ _ hc (Memory.read_fits ..) (by rwa [Memory.read_length hb])
  | write f b start vs m five =>
    exact slaveWrite_fits hr hc (pduFits_eq_true.2 ⟨by omega, five.trans_le (Cfg.five_le_maxPdu hc)⟩)

/-- `SLAVE.EXEC` takes every PDU that is not empty to its end (R241, R244). -/
theorem slaveExec_fits {pdu : List Byte} (hne : pdu ≠ []) : Fits s.cfg (slaveExec pdu s) := by
  obtain ⟨fc, rest, rfl⟩ := List.exists_cons_of_ne_nil hne
  cases hd : decodeRequest (fc :: rest) with
  | ok m =>
    rw [slaveExec_of_ok hd]
    exact (slaveRequest_row (Request.wf_of_decodeRequest hd)).fits hr hc
  | error r =>
    rcases decodeRequest_eq_error hd with hmal | hexc
    · rw [slaveExec_of_malformed (hmal.imp (· ▸ hd) (· ▸ hd))]
      cases hp : s.cfg.malformedPolicy with
      | drop => exact ⟨s, none, slaveMalformed_of_drop fc hp, nofun⟩
      | exception code => exact .exception hc (slaveMalformed_of_exception fc hp)
    · obtain ⟨code, h⟩ := slaveExec_of_exception hd hexc s
      exact .exception hc h

end

/-! ### Silence of `SLAVE.EXEC` -/

/-- `SLAVE.EXEC` answers none exactly for a malformed PDU under the drop policy (R251, R253). -/
theorem slaveExec_eq_none_iff {pdu : List Byte} {s s' : State} {rsp : Option (List Byte)}
    (h : slaveExec pdu s = .ok (s', rsp)) : rsp = none ↔
      (decodeRequest pdu = .error .length ∨ decodeRequest pdu = .error .byteCount) ∧
        s.cfg.malformedPolicy = .drop := by
  cases hd : decodeRequest pdu with
  | ok m =>
    rw [slaveExec_of_ok hd] at h
    exact iff_of_false ((slaveRequest_row (Request.wf_of_decodeRequest hd)).ne_none h) (by simp)
  | error r =>
    cases pdu with
    | nil => cases h
    | cons fc rest =>
      rcases decodeRequest_eq_error hd with hmal | hexc
      · rw [slaveExec_of_malformed (hmal.imp (· ▸ hd) (· ▸ hd))] at h
        cases hp : s.cfg.malformedPolicy with
        | drop =>
          cases h.symm.trans (slaveMalformed_of_drop fc hp)
          simpa using hmal
        | exception code =>
          cases h.symm.trans (slaveMalformed_of_exception fc hp)
          simp [exceptionReply]
      · obtain ⟨code, he⟩ := slaveExec_of_exception hd hexc s
        cases h.symm.trans he
        refine iff_of_false nofun ?_
        rcases hexc with ⟨v, rfl⟩ | rfl <;> simp

/-- What is met with silence has changed nothing (R251). -/
theorem slaveExec_none_state {pdu : List Byte} {s s' : State} (h : slaveExec pdu s = .ok (s', none)) : s' = s := by
  rcases ((slaveExec_eq_none_iff h).1 rfl).1 with hd | hd <;>
    exact slaveRejected_state ((congrFun (slaveExec_of_error hd) s).symm.trans h)

/-- One store operation sends at most one record (R30). -/
theorem StoreStep.events_le {s s' : State} (h : StoreStep s s') :
    s'.evtR.length + s'.evtW.length ≤ s.evtR.length + s.evtW.length + 1 := by
  cases h with
  | none => omega
  | read => simp; omega
  | write => simp; omega

/-- Settles O42: the row by `exec_ofRequest`; the end by `slaveExec_fits`, the records by the one store operation, and
the silence by `slaveExec_eq_none_iff`. -/
theorem sLAVE_EXEC_Result : Obligations.SLAVE_EXEC_Result := by
  refine ⟨fun pdu m s hd => ?row, fun pdu s hne hr hc => ?completes⟩
  case row =>
    rw [exec_ofRequest, ← slaveExec_of_ok hd]
    rfl
  case completes =>
    obtain ⟨s', rsp, h, -⟩ := slaveExec_fits hr hc hne
    refine ⟨_, rsp, answerSlave_of_ok hr.1 h, rfl, (slaveExec_storeStep h).events_le, ?_⟩
    rintro rfl
    exact ⟨((slaveExec_eq_none_iff h).1 rfl).2, by rw [slaveExec_none_state h]⟩

end Sys2Proof.Machine

namespace Sys2Proof.Machine

/-! ### The pair selected by `CFG.FRAMING` -/

section
variable {c : Cfg}

theorem frameBy_of_fits {pdu : List Byte} (hm : ¬ (c.framing = .mbap ∧ c.mbapPresent = false))
    (hp : pduFits c pdu = true) (tid : Word) (unit : Byte) : ∃ wire, frameBy c tid unit pdu = .ok wire := by
  rw [frameBy, if_neg hm, if_neg (by simp [hp])]
  cases c.framing <;> exact ⟨_, rfl⟩

/-- A serial framing takes no identifier and gives none (R240). -/
theorem serial_framing {wire : List Byte} {unframe : Except Error (Byte × List Byte)}
    {frame : Byte → List Byte → List Byte}
    (h : (c.framing = .rtu ∧ unframe = rtuUnframe c wire ∧ frame = rtuFrame) ∨
      (c.framing = .ascii ∧ unframe = ascUnframe c wire ∧ frame = ascFrame)) :
    ¬ (c.framing = .mbap ∧ c.mbapPresent = false) ∧ unframeBy c wire = unframe.map (fun u => (0, u.1, u.2)) ∧
      ∀ unit pdu, pduFits c pdu = true → frameBy c 0 unit pdu = .ok (frame unit pdu) := by
  rcases h with ⟨hf, rfl, rfl⟩ | ⟨hf, rfl, rfl⟩
  all_goals exact ⟨by simp [hf], by rw [unframeBy, hf], fun unit pdu hp => by simp [frameBy, hf, hp]⟩

theorem frameBy_mbap {pdu : List Byte} (hf : c.framing = .mbap) (hm : c.mbapPresent = true) (hp : pduFits c pdu = true)
    (tid : Word) (unit : Byte) : frameBy c tid unit pdu = .ok (mbapFrame tid unit pdu) := by
  simp [frameBy, hf, hm, hp]

theorem rtuUnframe_ne_nil {wire pdu : List Byte} {unit : Byte} (h : rtuUnframe c wire = .ok (unit, pdu)) :
    pdu ≠ [] := by
  by_cases hlen : wire.length < 4
  · cases (rtuUnframe_of_short c hlen).symm.trans h
  · obtain ⟨a, m, lo, hi, rfl, hm⟩ := exists_eq_cons_append_pair (show 3 ≤ wire.length by omega)
    rw [rtuUnframe_parts c a lo hi (by omega)] at h
    split_ifs at h
    cases h
    exact List.ne_nil_of_length_pos (by omega)

theorem ascUnframe_ne_nil {wire pdu : List Byte} {unit : Byte} (h : ascUnframe c wire = .ok (unit, pdu)) :
    pdu ≠ [] := by
  by_cases hlen : wire.length < 9
  · cases (ascUnframe_of_short c hlen).symm.trans h
  · obtain ⟨a, chars, x, y, rfl, hchars⟩ := exists_eq_cons_append_pair (show 3 ≤ wire.length by omega)
    rw [ascUnframe_parts c a x y (by omega)] at h
    split_ifs at h
    cases hd : hexDecode c.hexAcceptLower chars with
    | none => rw [hd] at h; cases h
    | some bytes =>
      have hbytes := (hexDecode_eq_some hd).1
      obtain ⟨a, m, p, x, rfl, -⟩ := exists_eq_cons_append_pair (show 3 ≤ bytes.length by omega)
      have happ : a :: m ++ [p, x] = a :: (m ++ [p]) ++ [x] := by simp
      rw [hd, Option.elim_some, happ, ascBytes_parts] at h
      split_ifs at h
      cases h
      exact List.append_ne_nil_of_right_ne_nil m (List.cons_ne_nil p [])

theorem mbapUnframe_ne_nil {wire pdu : List Byte} {tid : Word} {unit : Byte}
    (h : mbapUnframe wire = .ok (tid, unit, pdu)) : pdu ≠ [] := by
  unfold mbapUnframe at h
  split at h
  · split_ifs at h
    cases h
    exact List.cons_ne_nil _ _
  · cases h

/-- No frame that is taken carries an empty PDU (R216, R224, R233). -/
theorem unframeBy_ne_nil {wire pdu : List Byte} {tid : Word} {unit : Byte}
    (h : unframeBy c wire = .ok (tid, unit, pdu)) : pdu ≠ [] := by
  unfold unframeBy at h
  split at h
  · obtain ⟨u, hu, heq⟩ := map_eq_ok h
    cases heq
    exact rtuUnframe_ne_nil hu
  · obtain ⟨u, hu, heq⟩ := map_eq_ok h
    cases heq
    exact ascUnframe_ne_nil hu
  · exact mbapUnframe_ne_nil h

end

/-! ### What `SLAVE.STEP` answers -/

theorem StoreStep.cfg {s s' : State} (h : StoreStep s s') : s'.cfg = s.cfg := by
  cases h <;> simp

theorem StoreStep.slaveTx {s s' : State} (h : StoreStep s s') : s'.slaveTx = s.slaveTx := by
  cases h <;> simp

theorem slaveReply_of_frame {tid : Word} {unit : Byte} {s : State} {pdu wire : List Byte}
    (h : frameBy s.cfg tid unit pdu = .ok wire) :
    slaveReply tid unit s (some pdu) = .ok (s.slaveWrite wire, some wire) := by
  simp only [slaveReply, h]

section
variable {wire pdu : List Byte} {s : State} {tid : Word} {unit : Byte}
  (hm : ¬ (s.cfg.framing = .mbap ∧ s.cfg.mbapPresent = false))
include hm

theorem slaveStep_of_unframe_error {e : Error} (hu : unframeBy s.cfg wire = .error e) :
    slaveStep wire s = .ok (s, none) := by
  rw [slaveStep, if_neg hm, hu]

theorem slaveStep_of_filtered (hu : unframeBy s.cfg wire = .ok (tid, unit, pdu))
    (ha : unitAccepted s.cfg unit = false) : slaveStep wire s = .ok (s, none) := by
  simp only [slaveStep, if_neg hm, hu, ha, if_true]

theorem slaveStep_of_exec {s' : State} {rsp : Option (List Byte)} (hu : unframeBy s.cfg wire = .ok (tid, unit, pdu))
    (ha : unitAccepted s.cfg unit = true) (h : slaveExec pdu s = .ok (s', rsp)) :
    slaveStep wire s = slaveReply tid unit s' rsp := by
  simp only [slaveStep, if_neg hm, hu, ha, h, Bool.true_eq_false, if_false]

theorem exec_slaveStep_of_silence {t : State} (hu : unframeBy s.cfg wire = .ok (tid, unit, pdu))
    (ha : unitAccepted s.cfg unit = true) (h : exec (.slaveExec pdu) s = .next t)
    (hn : t.rsp = some (.ok (.reply none))) : exec (.slaveStep wire) s = .next t := by
  obtain ⟨hc, s', rsp, hs, rfl⟩ := answerSlave_eq_next.1 h
  cases hn
  exact answerSlave_of_ok hc (slaveStep_of_exec hm hu ha hs)

theorem exec_slaveStep_of_reply {t : State} {rsp w : List Byte} (hu : unframeBy s.cfg wire = .ok (tid, unit, pdu))
    (ha : unitAccepted s.cfg unit = true) (h : exec (.slaveExec pdu) s = .next t)
    (hsome : t.rsp = some (.ok (.reply (some rsp)))) (hw : frameBy s.cfg tid unit rsp = .ok w) :
    exec (.slaveStep wire) s
      = .next { t with slaveTx := t.slaveTx ++ [w], rsp := some (.ok (.reply (some w))) } := by
  obtain ⟨hc, s', rsp, hs, rfl⟩ := answerSlave_eq_next.1 h
  cases hsome
  have hcfg := (slaveExec_storeStep hs).cfg
  exact answerSlave_of_ok hc ((slaveStep_of_exec hm hu ha hs).trans (slaveReply_of_frame (hcfg ▸ hw)))

end

/-- Settles O43: the four outcomes of `SLAVE.STEP`, where the serial pair is `unframeBy` and `frameBy`. -/
theorem sLAVE_STEP_Result : Obligations.SLAVE_STEP_Result := by
  intro wire s unframe frame hc hserial
  obtain ⟨hm, hun, hframe⟩ := serial_framing hserial
  refine ⟨fun e hu => ?_, fun unit pdu hu ha => ?_, fun unit pdu t hu ha => ?_,
    fun unit pdu t rsp hu ha h hsome h1 hmax => ?_⟩
  all_goals rw [hu] at hun
  · exact answerSlave_of_ok hc (slaveStep_of_unframe_error hm hun)
  · exact answerSlave_of_ok hc (slaveStep_of_filtered hm hun ha)
  · exact exec_slaveStep_of_silence hm hun ha
  · exact exec_slaveStep_of_reply hm hun ha h hsome (hframe unit rsp (pduFits_eq_true.2 ⟨h1, hmax⟩))

/-- Settles O44: the same outcomes under MBAP framing, whose pair takes the identifier of the request. -/
theorem slaveStepUnderMbap : Obligations.SlaveStepUnderMbap := by
  intro wire s hc hf hp
  have hm : ¬ (s.cfg.framing = .mbap ∧ s.cfg.mbapPresent = false) := by simp [hp]
  have hun : unframeBy s.cfg wire = mbapUnframe wire := by rw [unframeBy, hf]
  refine ⟨fun e hu => answerSlave_of_ok hc (slaveStep_of_unframe_error hm (hun.trans hu)),
    fun tid unit pdu t rsp hu ha h hsome h1 hmax => ?_⟩
  exact exec_slaveStep_of_reply hm (hun.trans hu) ha h hsome
    (frameBy_mbap hf hp (pduFits_eq_true.2 ⟨h1, hmax⟩) tid unit)

/-- Every candidate frame is taken to its end, and the reply is what is written (R240, R319). -/
theorem slaveStep_completes (wire : List Byte) {s : State} (hr : s.StoreReady) (hc : s.cfg.answersFit = true) :
    ∃ s' rsp, slaveStep wire s = .ok (s', rsp) ∧ s'.slaveTx = s.slaveTx ++ rsp.toList := by
  have hm := Cfg.mbapPresent_of_answersFit hc
  cases hu : unframeBy s.cfg wire with
  | error e => exact ⟨s, none, slaveStep_of_unframe_error hm hu, by simp⟩
  | ok u =>
    obtain ⟨tid, unit, pdu⟩ := u
    cases ha : unitAccepted s.cfg unit with
    | false => exact ⟨s, none, slaveStep_of_filtered hm hu ha, by simp⟩
    | true =>
      obtain ⟨s', rsp, hs, hfits⟩ := slaveExec_fits hr hc (unframeBy_ne_nil hu)
      have hstep := slaveStep_of_exec hm hu ha hs
      have htx := (slaveExec_storeStep hs).slaveTx
      have hcfg := (slaveExec_storeStep hs).cfg
      cases rsp with
      | none => exact ⟨s', none, hstep, by simp [htx]⟩
      | some p =>
        obtain ⟨w, hw⟩ := frameBy_of_fits hm (hfits p rfl) tid unit
        exact ⟨_, some w, hstep.trans (slaveReply_of_frame (hcfg ▸ hw)), by simp [htx]⟩

/-- Settles O45: by `slaveStep_completes`, whose answer is put on the response port. -/
theorem slaveStepCompletes : Obligations.SlaveStepCompletes := by
  intro wire s hr hc
  obtain ⟨s', rsp, h, htx⟩ := slaveStep_completes wire hr hc
  exact ⟨_, rsp, answerSlave_of_ok hr.1 h, rfl, htx⟩

theorem slaveReply_eq_none_iff {tid : Word} {unit : Byte} {s s' : State} {rsp r : Option (List Byte)}
    (h : slaveReply tid unit s rsp = .ok (s', r)) : r = none ↔ rsp = none := by
  rcases slaveReply_cases h with ⟨rfl, -, rfl⟩ | ⟨p, w, rfl, -, -, rfl⟩ <;> simp

/-- Settles O46: a frame that is dropped is in one of the first two cases, and one that reaches `SLAVE.EXEC` can only be
in the third, which is `slaveExec_eq_none_iff`. -/
theorem silenceInExactlyThreeCases : Obligations.SilenceInExactlyThreeCases := by
  intro wire s t r h hr
  obtain ⟨-, s', rsp, hs, rfl⟩ := answerSlave_eq_next.1 h
  cases hr
  rcases slaveStep_cases hs with ⟨-, rfl, hdropped⟩ | ⟨tid, unit, pdu, s1, rsp, hu, ha, he, hrep⟩
  · exact iff_of_true rfl (hdropped.imp_right .inl)
  · rw [slaveReply_eq_none_iff hrep, slaveExec_eq_none_iff he]
    simp [hu, ha]

end Sys2Proof.Machine

/-! The family 45_master.md. How one attempt ends is said once (`AttemptEnds`), and so is the course of the attempts of
one request (`MasterRun`, `masterLoop_run`): how many frames are sent, which answer decides, and the arrows gone along
are each read off it by induction. -/

namespace Sys2Proof.Machine

/-! ### The frame a request is sent in -/

theorem encodeRequest_length_pos (m : Request) : 1 ≤ (encodeRequest m).length := by
  obtain ⟨rest, h⟩ := encodeRequest_eq m
  simp [h]

theorem frameBy_of_sendable {m : Request} {c : Cfg} (h : m.sendable c) (tid : Word) (unit : Byte) :
    frameBy c tid unit (encodeRequest m) = .ok (m.frame c tid unit) := by
  obtain ⟨-, hlen, hmbap⟩ := h
  have hfits : pduFits c (encodeRequest m) = true := pduFits_eq_true.2 ⟨encodeRequest_length_pos m, hlen⟩
  cases hf : c.framing with
  | rtu => simp [frameBy, Request.frame, hf, hfits]
  | ascii => simp [frameBy, Request.frame, hf, hfits]
  | mbap => simp [frameBy_mbap hf (hmbap hf) hfits, Request.frame, hf]

theorem exec_masterExecute_of_sendable {m : Request} {s : State} (hi : s.mstate = .idle) (hc : s.created = true)
    (h : m.sendable s.cfg) (unit : Byte) :
    exec (.masterExecute unit m) s =
      .next (masterLoop (m.frame s.cfg s.nextTid unit) unit m.expect s.cfg.retries (s.masterBegin m)) := by
  simp [exec, execMasterExecute, hi, hc, h.1, frameBy_of_sendable h]

/-! ### One attempt -/

/-- The exception check ahead of the response decoder reports nothing the decoder would not report (R217, R182). -/
theorem checkException_cases (pdu : List Byte) (expect : Expect) :
    checkException pdu = .ok pdu ∨
    ∃ e, checkException pdu = .error e ∧ decodeResponse pdu expect = .error e := by
  rcases pdu with _ | ⟨fc, rest⟩
  · exact .inl rfl
  · cases h : exceptionBit fc with
    | false => exact .inl (checkException_of_clear h rest)
    | true =>
      rcases rest with _ | ⟨code, rest⟩
      · exact .inr ⟨_, checkException_of_one h, decodeResponse_of_short_exception h expect⟩
      · exact .inr ⟨_, checkException_of_code h code rest, decodeResponse_of_exception h code rest expect⟩

/-- How an attempt ends on the transport's answer `a`, and the states `seen` it goes through (R271): an intact frame
decides, and an error the retry budget covers is met in `AwaitingResponse` or in `Validating`. -/
def AttemptEnds (c : Cfg) (unit : Byte) (expect : Expect) (a : RxAnswer) (seen : List MState) : Verdict → Prop
  | .done m => a.intactResult c unit expect = some (.ok (.response m)) ∧
    seen = [.sending, .awaitingResponse, .validating]
  | .fail e => a.intactResult c unit expect = some (.error e) ∧
    seen = [.sending, .awaitingResponse, .validating]
  | .retry e => a.transportError? c = some e ∧
    (seen = [.sending, .awaitingResponse] ∨ seen = [.sending, .awaitingResponse, .validating])

theorem masterValidate_ends (c : Cfg) (unit : Byte) (expect : Expect) (wire : List Byte) :
    AttemptEnds c unit expect (.frame wire) [.sending, .awaitingResponse, .validating]
      (masterValidate c unit expect wire) := by
  unfold masterValidate
  cases hu : unframeBy c wire with
  | error e => exact ⟨by simp only [RxAnswer.transportError?, hu], .inr rfl⟩
  | ok u =>
    obtain ⟨tid, unit', pdu⟩ := u
    by_cases hunit : c.masterCheckUnit = true ∧ unit' ≠ unit
    · simp only [if_pos hunit]
      exact ⟨by simp only [RxAnswer.intactResult, hu, if_pos hunit], rfl⟩
    · simp only [if_neg hunit]
      rcases checkException_cases pdu expect with hok | ⟨e, herr, hdec⟩
      · simp only [hok]
        cases hdec : decodeResponse pdu expect with
        | ok m => exact ⟨by simp only [RxAnswer.intactResult, hu, if_neg hunit, hdec], rfl⟩
        | error e => exact ⟨by simp only [RxAnswer.intactResult, hu, if_neg hunit, hdec], rfl⟩
      · simp only [herr]
        exact ⟨by simp only [RxAnswer.intactResult, hu, if_neg hunit, hdec], rfl⟩

/-- An attempt is decided by the next answer of the transport, an empty queue being a timeout (log entry 13). -/
theorem masterAttempt_ends (wire : List Byte) (unit : Byte) (expect : Expect) (s : State) :
    ∃ seen, (masterAttempt wire unit expect s).2.mtrace = s.mtrace ++ seen ∧
      AttemptEnds s.cfg unit expect (s.masterRx.getD 0 .timeout) seen (masterAttempt wire unit expect s).1 := by
  cases hrx : s.masterRx with
  | nil =>
    exact ⟨[.sending, .awaitingResponse], by simp [masterAttempt, State.receive, hrx],
      by simpa [masterAttempt, State.receive, hrx] using ⟨rfl, .inl rfl⟩⟩
  | cons a rest =>
    cases a with
    | timeout =>
      exact ⟨[.sending, .awaitingResponse], by simp [masterAttempt, State.receive, hrx],
        by simpa [masterAttempt, State.receive, hrx] using ⟨rfl, .inl rfl⟩⟩
    | frame w =>
      exact ⟨[.sending, .awaitingResponse, .validating], by simp [masterAttempt, State.receive, hrx],
        by simpa [masterAttempt, State.receive, hrx] using masterValidate_ends s.cfg unit expect w⟩

/-! ### The attempts of one request -/

section
variable {wire : List Byte} {unit : Byte} {expect : Expect}

/-- An attempt from `s` with the verdict `v`, gone through the states `seen`, leaves `s'` (R271). -/
structure Attempt (wire : List Byte) (unit : Byte) (expect : Expect) (s : State) (v : Verdict) (seen : List MState)
    (s' : State) : Prop where
  ends : AttemptEnds s.cfg unit expect (s.masterRx.getD 0 .timeout) seen v
  cfg : s'.cfg = s.cfg
  mtrace : s'.mtrace = s.mtrace ++ seen
  masterTx : s'.masterTx = s.masterTx ++ [wire]
  masterRx : s'.masterRx = s.masterRx.drop 1
  attempts : s'.attempts = s.attempts + 1

theorem attempt_of_masterAttempt {s s' : State} {v : Verdict} (h : masterAttempt wire unit expect s = (v, s')) :
    ∃ seen, Attempt wire unit expect s v seen s' := by
  obtain ⟨hframe, htx, hatt, -, hrx⟩ := masterAttempt_spec wire unit expect s
  obtain ⟨seen, htrace, hends⟩ := masterAttempt_ends wire unit expect s
  rw [h] at hframe htx hatt hrx htrace hends
  exact ⟨seen, hends, hframe.cfg, htrace, htx, hrx, hatt⟩

/-- The answers of the attempts that follow are those after the first. -/
theorem Attempt.getD_masterRx {s s' : State} {v : Verdict} {seen : List MState}
    (a : Attempt wire unit expect s v seen s') (j : Nat) :
    s'.masterRx.getD j .timeout = s.masterRx.getD (j + 1) .timeout := by
  simp [a.masterRx]

/-- The course of a request from the state before a send: `k` attempts, the last of which ends it in `t` (R271, R272). -/
inductive MasterRun (wire : List Byte) (unit : Byte) (expect : Expect) : State → Nat → State → Prop
  | done {s s' : State} {m : Response} {seen : List MState} (a : Attempt wire unit expect s (.done m) seen s') :
    MasterRun wire unit expect s 1 (s'.masterDone m)
  | fail {s s' : State} {e : Error} {seen : List MState} (a : Attempt wire unit expect s (.fail e) seen s') :
    MasterRun wire unit expect s 1 (s'.masterFail e)
  | spent {s s' : State} {e : Error} {seen : List MState} (a : Attempt wire unit expect s (.retry e) seen s')
    (h : s'.cfg.retries < s'.attempts) : MasterRun wire unit expect s 1 (s'.masterFail e)
  | again {s s' t : State} {e : Error} {seen : List MState} {k : Nat} (a : Attempt wire unit expect s (.retry e) seen s')
    (h : s'.attempts ≤ s'.cfg.retries) (run : MasterRun wire unit expect (s'.goMaster .retrying) k t) :
    MasterRun wire unit expect s (k + 1) t

/-- Where the first argument of `masterLoop` covers the retries left, the budget alone ends the attempts. -/
theorem masterLoop_run (n : Nat) {s : State} (h : s.cfg.retries ≤ s.attempts + n) :
    ∃ k, MasterRun wire unit expect s k (masterLoop wire unit expect n s) := by
  induction n generalizing s with
  | zero =>
    rw [masterLoop]
    rcases h' : masterAttempt wire unit expect s with ⟨v, s'⟩
    obtain ⟨seen, ha⟩ := attempt_of_masterAttempt h'
    cases v with
    | done m => exact ⟨1, .done ha⟩
    | fail e => exact ⟨1, .fail ha⟩
    | retry e => exact ⟨1, .spent ha (by rw [ha.cfg, ha.attempts]; omega)⟩
  | succ n ih =>
    rw [masterLoop]
    rcases h' : masterAttempt wire unit expect s with ⟨v, s'⟩
    obtain ⟨seen, ha⟩ := attempt_of_masterAttempt h'
    cases v with
    | done m => exact ⟨1, .done ha⟩
    | fail e => exact ⟨1, .fail ha⟩
    | retry e =>
      dsimp only
      split
      · next hle =>
        obtain ⟨k, hrun⟩ := ih (s := s'.goMaster .retrying) (by
          rw [State.goMaster_cfg, State.goMaster_attempts, ha.cfg, ha.attempts]; omega)
        exact ⟨k + 1, .again ha hle hrun⟩
      · next hgt => exact ⟨1, .spent ha (Nat.lt_of_not_le hgt)⟩

theorem MasterRun.pos {s t : State} {k : Nat} (h : MasterRun wire unit expect s k t) : 1 ≤ k := by
  cases h <;> omega

/-- Every attempt sends the identical frame, takes one answer and is counted (R272). -/
theorem MasterRun.counts {s t : State} {k : Nat} (h : MasterRun wire unit expect s k t) :
    t.attempts = s.attempts + k ∧ t.masterTx = s.masterTx ++ List.replicate k wire ∧
      t.masterRx = s.masterRx.drop k := by
  induction h with
  | done a => exact ⟨a.attempts, a.masterTx, a.masterRx⟩
  | fail a => exact ⟨a.attempts, a.masterTx, a.masterRx⟩
  | spent a => exact ⟨a.attempts, a.masterTx, a.masterRx⟩
  | again a _ _ ih =>
    obtain ⟨hatt, htx, hrx⟩ := ih
    refine ⟨?_, ?_, ?_⟩
    · rw [hatt, State.goMaster_attempts, a.attempts]; omega
    · simp [htx, a.masterTx, List.replicate_succ]
    · simp [hrx, a.masterRx]

/-- The budget is `RETRIES + 1` sends (R272). -/
theorem MasterRun.within_budget {s t : State} {k : Nat} (h : MasterRun wire unit expect s k t)
    (hs : s.attempts ≤ s.cfg.retries) : s.attempts + k ≤ s.cfg.retries + 1 := by
  induction h with
  | done => omega
  | fail => omega
  | spent => omega
  | again a hle _ ih =>
    have hk := ih hle
    rw [State.goMaster_attempts, State.goMaster_cfg, a.cfg, a.attempts] at hk
    omega

/-- Every attempt but the last ended in an error the retry budget covers (R271, R275). -/
theorem MasterRun.earlier_lost {s t : State} {k : Nat} (h : MasterRun wire unit expect s k t) {j : Nat}
    (hj : j + 1 < k) : ((s.masterRx.getD j .timeout).transportError? s.cfg).isSome = true := by
  induction h generalizing j with
  | done => omega
  | fail => omega
  | spent => omega
  | again a _ _ ih =>
    cases j with
    | zero =>
      obtain ⟨hlost, -⟩ := a.ends
      rw [hlost]; rfl
    | succ j =>
      rw [← a.getD_masterRx, ← a.cfg]
      exact ih (by omega)

/-- The last answer decides: an intact frame gives the result, and where the budget is spent its error is returned
(R271, R272). -/
theorem MasterRun.last_decides {s t : State} {k : Nat} (h : MasterRun wire unit expect s k t) :
    (∃ r, (s.masterRx.getD (k - 1) .timeout).intactResult s.cfg unit expect = some r ∧ t.rsp = some r) ∨
    (s.cfg.retries < s.attempts + k ∧
      ∃ e, (s.masterRx.getD (k - 1) .timeout).transportError? s.cfg = some e ∧ t.rsp = some (.error e)) := by
  induction h with
  | done a =>
    obtain ⟨hintact, -⟩ := a.ends
    exact .inl ⟨_, hintact, rfl⟩
  | fail a =>
    obtain ⟨hintact, -⟩ := a.ends
    exact .inl ⟨_, hintact, rfl⟩
  | spent a hgt =>
    obtain ⟨hlost, -⟩ := a.ends
    exact .inr ⟨by rwa [a.cfg, a.attempts] at hgt, _, hlost, rfl⟩
  | again a _ run ih =>
    obtain ⟨k, rfl⟩ := Nat.exists_eq_add_of_le' run.pos
    rw [State.goMaster_cfg, State.goMaster_masterRx, State.goMaster_attempts, Nat.add_sub_cancel, a.getD_masterRx,
      a.cfg, a.attempts, Nat.add_right_comm] at ih
    exact ih

/-! ### The arrows gone along -/

/-- The states gone through from a send on: the arrows of R271, ending in Idle. -/
theorem MasterRun.trace {s t : State} {k : Nat} (h : MasterRun wire unit expect s k t) :
    ∃ tr, t.mtrace = s.mtrace ++ .sending :: tr ∧ MState.sending.path tr = true ∧ tr.getLast? = some .idle := by
  induction h with
  | done a =>
    obtain ⟨-, rfl⟩ := a.ends
    exact ⟨[.awaitingResponse, .validating, .idle], by simp [State.masterDone, a.mtrace], rfl, rfl⟩
  | fail a =>
    obtain ⟨-, rfl⟩ := a.ends
    exact ⟨[.awaitingResponse, .validating, .failed, .idle], by simp [State.masterFail, a.mtrace], rfl, rfl⟩
  | spent a =>
    obtain ⟨-, rfl | rfl⟩ := a.ends
    · exact ⟨[.awaitingResponse, .failed, .idle], by simp [State.masterFail, a.mtrace], rfl, rfl⟩
    · exact ⟨[.awaitingResponse, .validating, .failed, .idle], by simp [State.masterFail, a.mtrace], rfl, rfl⟩
  | again a _ _ ih =>
    obtain ⟨tr, htr, hpath, hlast⟩ := ih
    obtain ⟨-, rfl | rfl⟩ := a.ends
    · exact ⟨.awaitingResponse :: .retrying :: .sending :: tr, by simp [htr, a.mtrace],
        by simpa [MState.path, MState.arrow] using hpath, by simp [List.getLast?_cons, hlast]⟩
    · exact ⟨.awaitingResponse :: .validating :: .retrying :: .sending :: tr, by simp [htr, a.mtrace],
        by simpa [MState.path, MState.arrow] using hpath, by simp [List.getLast?_cons, hlast]⟩

end

/-! ### The whole request -/

/-- What a request leaves of the state it began in: all but the Master's own fields and the result (R271). -/
theorem MasterEnds.eq_update {s t : State} {m : Request} (h : MasterEnds (s.masterBegin m) t) :
    t = { s with
      mstate := .idle, req := none, attempts := t.attempts, tid := s.nextTid, freeCtr := t.freeCtr
      mtrace := t.mtrace, masterTx := t.masterTx, masterRx := t.masterRx, rsp := t.rsp } := by
  obtain ⟨⟨hcfg, hmem, hcreated, hbusy, hobsR, hobsW, hevtR, hevtW, htid, hpending, hslaveTx, -⟩, hidle, hreq, -⟩ := h
  obtain ⟨⟩ := t
  subst hcfg hmem hcreated hbusy hobsR hobsW hevtR hevtW htid hpending hslaveTx hidle hreq
  rfl

theorem masterBegin_run (wire : List Byte) (unit : Byte) (m : Request) (s : State) :
    ∃ k, MasterRun wire unit m.expect (s.masterBegin m) k
      (masterLoop wire unit m.expect s.cfg.retries (s.masterBegin m)) :=
  masterLoop_run _ (Nat.le_add_left ..)

/-- A request that can be sent completes, by a run of attempts that leaves what `MasterEnds` says. -/
theorem exec_masterExecute_run {m : Request} {s : State} (hi : s.mstate = .idle) (hc : s.created = true)
    (hm : m.sendable s.cfg) (unit : Byte) :
    ∃ t k, exec (.masterExecute unit m) s = .next t ∧ MasterEnds (s.masterBegin m) t ∧
      MasterRun (m.frame s.cfg s.nextTid unit) unit m.expect (s.masterBegin m) k t := by
  obtain ⟨k, hrun⟩ := masterBegin_run (m.frame s.cfg s.nextTid unit) unit m s
  exact ⟨_, k, exec_masterExecute_of_sendable hi hc hm unit, masterLoop_ends .., hrun⟩

/-- Settles O49: the run's counts, its budget, its lost answers and its last one, over the frame `MasterEnds` keeps. -/
theorem mASTER_EXECUTE_Result : Obligations.MASTER_EXECUTE_Result := by
  intro unit m s hi hc hm
  obtain ⟨t, k, hexec, hends, hrun⟩ := exec_masterExecute_run hi hc hm unit
  have hbudget : k ≤ s.cfg.retries + 1 := by simpa [State.masterBegin] using hrun.within_budget (Nat.zero_le _)
  refine ⟨t, k, hexec, hrun.pos, hbudget, ?_, fun j => hrun.earlier_lost, ?_⟩
  · obtain ⟨hattempts, hsent, hreceived⟩ := hrun.counts
    have ht := hends.eq_update
    rw [hattempts.trans (Nat.zero_add k), hsent, hreceived] at ht
    exact ht
  · refine hrun.last_decides.imp_right fun ⟨hspent, herror⟩ => ⟨?_, herror⟩
    have hspent : s.cfg.retries < 0 + k := hspent
    omega

theorem getD_of_forall_eq {α : Type} {l : List α} {d : α} (h : ∀ a ∈ l, a = d) (j : Nat) : l.getD j d = d := by
  rw [List.eq_replicate_of_mem h, List.getD_eq_getElem?_getD, List.getElem?_getD_replicate_default_eq]

/-- Settles O50: a timeout is no intact frame, so the budget is spent. -/
theorem masterGivesUpAfterItsRetries : Obligations.MasterGivesUpAfterItsRetries := by
  intro unit m s hi hc hm hrx
  obtain ⟨t, k, hexec, -, -, ht, -, hlast⟩ := mASTER_EXECUTE_Result unit m s hi hc hm
  rw [getD_of_forall_eq hrx] at hlast
  obtain ⟨r, hintact, -⟩ | ⟨rfl, e, hlost, hrsp⟩ := hlast
  · cases hintact
  · cases hlost
    exact ⟨t, hexec, hrsp, by rw [ht], by rw [ht]⟩

/-- Settles O51: Idle has an arrow to the first send, from where `MasterRun.trace` goes on. -/
theorem masterFollowsItsStateMachine : Obligations.MasterFollowsItsStateMachine := by
  intro unit m s t h
  obtain ⟨-, -, -, wire, -, rfl⟩ := execMasterExecute_eq_next h
  obtain ⟨k, hrun⟩ := masterBegin_run wire unit m s
  obtain ⟨tr, htr, hpath, hlast⟩ := hrun.trace
  exact ⟨.sending :: tr, htr, by simpa [MState.path, MState.arrow] using hpath, rfl,
    by simp [List.getLast?_cons, hlast]⟩

/-- Settles O52: the guard of `MASTER.EXECUTE` is its first test. -/
theorem masterRefusesASecondRequest : Obligations.MasterRefusesASecondRequest :=
  fun _ _ _ h => if_pos h

end Sys2Proof.Machine

/-! The family 60_exceptions.md. How an operation from the wire ends is said once (`WireEnds`): at most one store
operation, then a reply. What the wire cannot reach is read off the store operation; an error on the response port is no
reply, so it comes from an operation that has only raised it (`exec_eq_raise`). -/

namespace Sys2Proof.Machine

/-! ### What keeps the store from an operation -/

section
variable {s : State}

theorem storeGuard_notCreated (h : s.created = false) : storeGuard s = .error .storeNotCreated := if_pos h

theorem storeGuard_busy (hc : s.created = true) (hb : s.dsBusy = true) : storeGuard s = .error .reentrantAccess := by
  simp [storeGuard, hc, hb]

/-- The three operations on the store are refused for the reason its guard gives (R310, R334). -/
theorem exec_of_storeGuard_error {r : Refusal} (h : storeGuard s = .error r) (b : Bank) (start count : Nat)
    (vs : Values) :
    exec (.dsRead b start count) s = .refused r ∧ exec (.dsWrite b start vs) s = .refused r ∧
    exec (.dsGrow b vs) s = .refused r := by
  simp only [exec, execDsRead, execDsWrite, execDsGrow, h]
  exact ⟨rfl, rfl, rfl⟩

theorem execDsGrow_misfit {b : Bank} {vs : Values} (hr : s.StoreReady) (hf : vs.fits b = false) :
    execDsGrow b vs s = .refused (.wrongElementKind b) := by
  rw [execDsGrow, storeGuard_bind_ready _ hr, if_pos hf]
  rfl

theorem execMasterExecute_notCreated (hi : s.mstate = .idle) (hc : s.created = false) (unit : Byte) (m : Request) :
    execMasterExecute unit m s = .refused .storeNotCreated := by
  rw [execMasterExecute, if_neg (not_not_intro hi), if_pos hc]

end

/-! ### What comes from the wire -/

/-- What comes from the wire: the eight requests, the unsupported function code, and the two commands of the slave. -/
theorem fromWire_cases {i : Instr} (h : i.fromWire = true) :
    (∃ m, i = .ofRequest m) ∨ (∃ fc, i = .reqUnsupported fc) ∨ (∃ pdu, i = .slaveExec pdu) ∨
    ∃ wire, i = .slaveStep wire := by
  cases i with
  | reqReadCoils start q => exact .inl ⟨.readCoils start q, rfl⟩
  | reqReadDiscreteInputs start q => exact .inl ⟨.readDiscreteInputs start q, rfl⟩
  | reqReadHoldingRegisters start q => exact .inl ⟨.readHoldingRegisters start q, rfl⟩
  | reqReadInputRegisters start q => exact .inl ⟨.readInputRegisters start q, rfl⟩
  | reqWriteSingleCoil a v => exact .inl ⟨.writeSingleCoil a v, rfl⟩
  | reqWriteSingleRegister a v => exact .inl ⟨.writeSingleRegister a v, rfl⟩
  | reqWriteMultipleCoils start vs => exact .inl ⟨.writeMultipleCoils start vs, rfl⟩
  | reqWriteMultipleRegisters start vs => exact .inl ⟨.writeMultipleRegisters start vs, rfl⟩
  | reqUnsupported fc => exact .inr (.inl ⟨fc, rfl⟩)
  | slaveExec pdu => exact .inr (.inr (.inl ⟨pdu, rfl⟩))
  | slaveStep wire => exact .inr (.inr (.inr ⟨wire, rfl⟩))
  | _ => nomatch h

/-- Nothing from the wire is taken before the store exists (R334; log entry 28). -/
theorem exec_fromWire_notCreated {i : Instr} {s : State} (hc : s.created = false) (hw : i.fromWire = true)
    (hwf : i.wf = true) : exec i s = .refused .storeNotCreated := by
  rcases fromWire_cases hw with ⟨m, rfl⟩ | ⟨fc, rfl⟩ | ⟨pdu, rfl⟩ | ⟨wire, rfl⟩
  · rw [exec_ofRequest, answerSlave_notCreated hc]
  · rw [exec_reqUnsupported s hwf, answerSlave_notCreated hc]
  · exact answerSlave_notCreated hc
  · exact answerSlave_notCreated hc

/-- Settles O34: the store's own operations by its guard, and what else waits for the store by its own test of it. -/
theorem storeRefusals : Obligations.StoreRefusals := by
  intro b start count vs s
  refine ⟨fun hc => ?notCreated, fun hc hb => ?busy, fun hr hf => execDsGrow_misfit hr hf⟩
  case notCreated =>
    obtain ⟨hread, hwrite, hgrow⟩ := exec_of_storeGuard_error (storeGuard_notCreated hc) b start count vs
    exact ⟨hread, hwrite, hgrow, fun _ _ => if_pos hc, fun _ => exec_fromWire_notCreated hc,
      fun unit m hi => execMasterExecute_notCreated hi hc unit m⟩
  case busy => exact exec_of_storeGuard_error (storeGuard_busy hc hb) b start count vs

/-- How an operation from the wire ends: after at most one store operation, with the slave's frames and a reply on the
response port (R240, R241). -/
inductive WireEnds (s : State) : State → Prop where
  | reply {s1 : State} (op : StoreStep s s1) (sent : List (List Byte)) (rsp : Option (List Byte)) :
    WireEnds s { s1 with slaveTx := sent, rsp := some (.ok (.reply rsp)) }

section
variable {i : Instr} {s s' t : State}

theorem answerSlave_wireEnds {f : State → SlaveAnswer} (hf : ∀ {s' r}, f s = .ok (s', r) → StoreStep s s')
    (h : answerSlave f s = .next t) : WireEnds s t := by
  obtain ⟨-, s1, rsp, h1, rfl⟩ := answerSlave_eq_next.1 h
  exact .reply (hf h1) s1.slaveTx rsp

theorem execReqUnsupported_wireEnds {fc : Byte} (h : execReqUnsupported fc s = .next t) : WireEnds s t := by
  unfold execReqUnsupported at h
  split at h
  · exact answerSlave_wireEnds (fun h => by cases h; exact .none) h
  · cases h

theorem execSlaveStep_wireEnds {wire : List Byte} (h : execSlaveStep wire s = .next t) : WireEnds s t := by
  obtain ⟨-, s', rsp, h1, rfl⟩ := answerSlave_eq_next.1 h
  obtain ⟨s1, op, rfl | ⟨w, rfl⟩⟩ := slaveStep_storeStep h1
  · exact .reply op s'.slaveTx rsp
  · exact .reply op (s1.slaveTx ++ [w]) rsp

theorem exec_fromWire_ends (hw : i.fromWire = true) (h : exec i s = .next t) : WireEnds s t := by
  rcases fromWire_cases hw with ⟨m, rfl⟩ | ⟨fc, rfl⟩ | ⟨pdu, rfl⟩ | ⟨wire, rfl⟩
  · rw [exec_ofRequest] at h
    exact answerSlave_wireEnds slaveRequest_storeStep h
  · exact execReqUnsupported_wireEnds h
  · exact answerSlave_wireEnds slaveExec_storeStep h
  · exact execSlaveStep_wireEnds h

theorem StoreStep.obsR (h : StoreStep s s') : s'.obsR = s.obsR := by rw [h.frame]

theorem StoreStep.obsW (h : StoreStep s s') : s'.obsW = s.obsW := by rw [h.frame]

/-- No address reaches the sentinel: it is translated to a storage index past 0 (R22, R54). -/
theorem StoreStep.sentinel_eq (h : StoreStep s s') (b : Bank) : s'.mem.elem? b 0 = s.mem.elem? b 0 := by
  cases h with
  | none => rfl
  | read => rfl
  | write _ _ _ _ fits _ inRange =>
    exact (Memory.write_elem? fits inRange b 0).trans (if_neg (by omega))

end

/-- Settles O58: the store operation of a request writes CD or HR past the sentinel, and nothing else is reached. -/
theorem wireHasProtocolAccessOnly : Obligations.WireHasProtocolAccessOnly := by
  intro i s t hw h
  obtain ⟨op, sent, rsp⟩ := exec_fromWire_ends hw h
  -- SLAVE.EXEC performs every request: its row of R25 bounds what one of them writes.
  have e := op.effect (i := .slaveExec []) rfl rfl
  exact ⟨op.created, op.obsR, op.obsW, op.cfg, Values.bits.inj (e.bank_eq (b := .id) rfl),
    Values.regs.inj (e.bank_eq (b := .ir) rfl), fun b => ⟨e.len_eq b nofun nofun nofun, op.sentinel_eq b⟩,
    op.events_le⟩

/-! ### What an error leaves unchanged -/

/-- Every operation but the Master's that raises an error has done nothing but raise it (R305). -/
theorem exec_eq_raise {i : Instr} {s t : State} {e : Error} (hm : ∀ unit m, i ≠ .masterExecute unit m)
    (h : exec i s = .next t) (he : t.rsp = some (.error e)) : t = s.raise e := by
  cases hk : i.isPure || i.fromWire with
  | true =>
    rcases Bool.or_eq_true_iff.1 hk with hp | hw
    · obtain ⟨x, rfl⟩ := exec_pure_eq_answer hp h
      cases he
      rfl
    · obtain ⟨op, sent, rsp⟩ := exec_fromWire_ends hw h
      cases he
  | false =>
    cases i with
    | dsRead =>
      obtain ⟨-, ⟨-, rfl⟩ | ⟨-, rfl⟩⟩ := execDsRead_cases h
      · cases he; rfl
      · cases he
    | dsWrite =>
      obtain ⟨-, -, ⟨-, rfl⟩ | ⟨-, rfl⟩⟩ := execDsWrite_cases h
      · cases he; rfl
      · cases he
    | dsCreate =>
      obtain ⟨-, rfl⟩ := execDsCreate_eq_next.1 h
      cases he
    | dsLoad =>
      obtain ⟨-, rfl⟩ := execDsLoad_eq_next.1 h
      cases he
    | dsGrow =>
      obtain ⟨-, -, rfl⟩ := execDsGrow_cases h
      cases he
    | obsSubscribe =>
      obtain ⟨-, rfl⟩ := execObsSubscribe_eq_next.1 h
      cases he
    | masterExecute unit m => exact absurd rfl (hm unit m)
    | _ => nomatch hk

/-- Settles O56: a request at the Master leaves the banks, the events and CFG, and every other error is only raised. -/
theorem errorsHaveNoSideEffect : Obligations.ErrorsHaveNoSideEffect := by
  intro i s t e h he
  by_cases hm : ∃ unit m, i = .masterExecute unit m
  · obtain ⟨unit, m, rfl⟩ := hm
    obtain ⟨-, -, -, wire, -, rfl⟩ := execMasterExecute_eq_next h
    have hf := (masterLoop_ends wire unit m.expect s.cfg.retries (s.masterBegin m)).frame
    exact ⟨hf.mem, hf.evtR, hf.evtW, hf.cfg, fun hn => absurd rfl (hn unit m)⟩
  · obtain rfl := exec_eq_raise (fun unit m hi => hm ⟨unit, m, hi⟩) h he
    exact ⟨rfl, rfl, rfl, rfl, fun _ => rfl⟩

end Sys2Proof.Machine

/-! The family 70_reset_and_hazards.md. What the creation makes of a state without a store is said once, from the
invariant (`State.Inv.create_eq_resetWith`). -/

namespace Sys2Proof.Machine

/-- Whatever ran before the creation left nothing but what is presented and what the transport will answer: with a store
put into it, the state is the reset state around that store (R330, R334; log entry 28). -/
theorem State.Inv.create_eq_resetWith {s : State} (h : s.Inv) (hc : s.created = false) (m : Memory) (x : Result) :
    State.answer { s with mem := m, created := true } x =
      { State.resetWith s.cfg with
        mem := m, pending := s.pending, masterRx := s.masterRx, rsp := some x } :=
  congrArg (fun u : State => State.answer { u with mem := m, created := true } x) (h.fresh hc)

/-- Settles O36: both operations put a store into a state that is otherwise as before creation. -/
theorem resetIsCreation : Obligations.ResetIsCreation := by
  refine ⟨fun s h hc => ⟨?create, fun cd id hr ir => ?load⟩, fun c => ?fresh, rfl⟩
  case create =>
    exact execDsCreate_eq_next.2 ⟨hc, (h.create_eq_resetWith hc (Memory.create s.cfg) (.ok .unit)).symm⟩
  case load =>
    exact execDsLoad_eq_next.2 ⟨hc, (h.create_eq_resetWith hc (Memory.load cd id hr ir) (.ok .unit)).symm⟩
  case fresh =>
    exact execDsCreate_eq_next.2 ⟨rfl, rfl⟩

end Sys2Proof.Machine
